-- ==== Sys2Proof/Word.lean ====
section
/-! DEFINITION. The word types of LCD-DE: a byte, and the 16-bit operand word (00_scope.md R5, 30_encoding.md R62). -/

namespace Sys2Proof

/-- One byte: of the command stream, of the framebuffer, of a glyph, on the wire (00 R5). -/
abbrev Byte := BitVec 8

/-- A 16-bit operand or register: `u16`, `q16` and LNCNT (30 R62, 10 R17). -/
abbrev Half := BitVec 16

end Sys2Proof
end

