-- ==== Sys2Proof/Config.lean ====
section
/-! DEFINITION. What an implementation of LCD-DE fixes: the geometry (00_scope.md R4), the shape of the parameters the
spec leaves OPEN (font, init sequence, sync preamble, pin format), and the free values, which are opaque constants. -/

namespace Sys2Proof

/-! ### Geometry (00 R4, values the source fixes) -/

/-- COLS, pixel columns. -/
@[simp] abbrev Config.cols : Nat := 84
/-- FB_SIZE, framebuffer bytes = COLS * PAGES. -/
@[simp] abbrev Config.fbSize : Nat := 504
/-- XMAX, the largest legal x. -/
@[simp] abbrev Config.xMax : Nat := 83
/-- YMAX, the largest legal y. -/
@[simp] abbrev Config.yMax : Nat := 47
/-- PMAX, the largest legal page. -/
@[simp] abbrev Config.pMax : Nat := 5
/-- CELL_W, the cursor's advance a character, and the width of a glyph cell. -/
@[simp] abbrev Config.cellW : Nat := 6
/-- STRING_TERM, the byte that ends a string payload (D19). -/
@[simp] abbrev Config.stringTerm : Byte := 0x00#8

/-! ### Free values -/

/-- UNSPECIFIED FRAMEBUFFER CONTENTS (70 R251, U7, U14): what the byte at an index holds that no command has written since
reset number `era`. No body: nothing in Lean knows a value of it. Log 1, log 2; safe. -/
opaque Config.fbUnspecified : Nat → Nat → Byte

/-- THE LEVEL OF SDIN BETWEEN BYTES (U18): the level of draw number `n`. No body. Log 3; safe. -/
opaque Config.sdinIdle : Nat → Bool

/-- WHERE IN A BYTE'S PIN SEQUENCE A STALLED BUS STANDS (70 R262 gives no place): the place of draw number `n`. No body. Log 6;
safe. -/
opaque Config.stallPoint : Nat → Nat

/-- T_RST_HOLD (41 R132, U10): a parameter without a value; no rule reads it and nothing here does. Log 15. -/
opaque Config.tRstHold : Nat

/-! ### Parameters (00 R4, status OPEN) -/

/-- One entry of the font ROM: five column bytes, left column first, bit 0 the top row (10 R28). -/
structure Glyph where
  c0 : Byte
  c1 : Byte
  c2 : Byte
  c3 : Byte
  c4 : Byte
  deriving DecidableEq, Repr

/-- The SPI pin format (00 R4, U5, 41 R136): bit order, clock mode, chip-enable framing, and the bit with which the controller
samples DC. -/
structure PinFormat where
  /-- Bit 7 of a byte goes first, else bit 0. -/
  msbFirst : Bool
  /-- The level at which SCLK idles. -/
  clockIdle : Bool
  /-- A bit is sampled on the second edge of its clock pulse, else on the first. -/
  sampleSecondEdge : Bool
  /-- The level of SCE that selects the controller. -/
  sceActive : Bool
  /-- SCE is released after every byte, else at the end of the command. -/
  scePerByte : Bool
  /-- The bit, counted from the first one sent, with which the controller samples DC. -/
  dcSample : Fin 8
  deriving DecidableEq, Repr

/-- The parameters of the block that the spec leaves OPEN. They are constants: State holds them so that a statement about
every state is a statement about every choice of them (log 7); no step changes them. -/
structure Params where
  /-- FONT_FIRST, the first character code the font ROM holds (D18). -/
  fontFirst : Byte
  /-- FONT_LAST, the last one. -/
  fontLast : Byte
  /-- FONT: the entry of code `fontFirst` first. -/
  font : List Glyph
  /-- INIT_SEQ: the command bytes INIT sends after the reset pulse (41 R137). -/
  initSeq : List Byte
  /-- SYNC_PREAMBLE: the command bytes SYNC sends before the data (44 R212). -/
  syncPreamble : List Byte
  /-- The SPI pin format (41 R136). -/
  pinFormat : PinFormat
  deriving DecidableEq, Repr

/-- What the spec asks of the parameters: the ROM holds a glyph for every code of its range (10 R28), and INIT_SEQ is a
non-empty list (41 R137). An empty SYNC_PREAMBLE is legal (44 R212). -/
abbrev Params.wf (p : Params) : Prop :=
  p.font.length + p.fontFirst.toNat = p.fontLast.toNat + 1 ∧ p.initSeq ≠ []

end Sys2Proof
end

