-- ==== Sys2Proof/Syntax.lean ====
section
/-! DEFINITION. The command packets of LCD-DE, one constructor a row of spec/opcode_table.json (30_encoding.md R70, R71). -/

namespace Sys2Proof

/-- A command packet with its operands in packet order (30 R70). A coordinate keeps all eight bits, for every operand value is
an encoding (30 R72). The seven rows of the reserved space carry the bits of the opcode byte that their row's mask leaves free. -/
inductive Instr where
  | nop
  | init
  | clear
  | gotoxy (x page : Byte)
  | bitmap (payload : List Byte)
  | setpx (x y : Byte)
  | clrpx (x y : Byte)
  | putc (c : Byte)
  | puts (str : List Byte)
  | putcxy (x page c : Byte)
  | putsxy (x page : Byte) (str : List Byte)
  | wrxy (x page : Byte) (len : Half) (payload : List Byte)
  | clrrng (x page : Byte) (len : Half)
  | sync
  | line (x0 y0 x1 y1 mindots : Half)
  | rdpix (x y : Byte)
  | rdbyte (idx : Half)
  | rsvd0F
  | rsvd12 (low : BitVec 1)
  | rsvd14 (low : BitVec 2)
  | rsvd18 (low : BitVec 3)
  | rsvd20 (low : BitVec 5)
  | rsvd40 (low : BitVec 6)
  | rsvd80 (low : BitVec 7)
  deriving DecidableEq, Repr

end Sys2Proof
end

