-- ==== Sys2Proof/WellFormed.lean ====
section
/-! DEFINITION. Which instruction terms are packets: the lengths and the terminator rule of 30_encoding.md R61, R66, R73.
Operand VALUES are never a matter of well-formedness (R72). -/

namespace Sys2Proof

/-- A string payload cannot hold the terminator (30 R73). -/
def strOk (str : List Byte) : Bool := str.all (fun c => c != Config.stringTerm)

/-- The term is a packet of the command stream. -/
def Instr.wf : Instr → Bool
  | .bitmap payload => payload.length == Config.fbSize
  | .puts str => strOk str
  | .putsxy _ _ str => strOk str
  | .wrxy _ _ len payload => payload.length == len.toNat
  | .nop | .init | .clear | .sync => true
  | .gotoxy _ _ | .setpx _ _ | .clrpx _ _ | .putc _ | .putcxy _ _ _ | .clrrng _ _ _ => true
  | .line _ _ _ _ _ | .rdpix _ _ | .rdbyte _ => true
  | .rsvd0F | .rsvd12 _ | .rsvd14 _ | .rsvd18 _ | .rsvd20 _ | .rsvd40 _ | .rsvd80 _ => true

end Sys2Proof
end

