-- ==== Sys2Proof/Decode.lean ====
section
/-! DEFINITION. The packet decoder (10_state.md R12, 30_encoding.md R60 to R73), byte at a time, the decoder of a whole byte
list built from it, and the encoder written from the same tables. -/

namespace Sys2Proof

/-! ### Byte order of 16-bit operands (20 R48, 30 R62) -/

/-- The operand `b1 ++ b0`, where `b0` is the byte that arrives first. -/
def half (b1 b0 : Byte) : Half := b1 ++ b0

/-- The byte of a 16-bit operand that is sent first. -/
def loByte (w : Half) : Byte := w.extractLsb' 0 8

/-- The byte of a 16-bit operand that is sent second. -/
def hiByte (w : Half) : Byte := w.extractLsb' 8 8

/-! ### Formats (30 R66) -/

/-- The eleven packet formats. -/
inductive Format where
  | z | a | ab | w | abc | abw | abwp | b504 | s | abs | l
  deriving DecidableEq, Repr

/-- What follows the operand bytes of a packet (30 R61). -/
inductive Payload where
  | none
  | counted (n : Nat)
  | terminated
  deriving DecidableEq, Repr

/-- NOPER, the number of fixed operand bytes of a format. -/
def Format.noper : Format → Nat
  | .z | .b504 | .s => 0
  | .a => 1
  | .ab | .w | .abs => 2
  | .abc => 3
  | .abw | .abwp => 4
  | .l => 10

/-- The payload of a format once its operand bytes `opb` are latched: PAYLEN is 504 for BITMAP and `{OPB[3], OPB[2]}` for
WRXY (30 R61). -/
def Format.payload (opb : List Byte) : Format → Payload
  | .abwp => .counted (half (opb.getD 3 0#8) (opb.getD 2 0#8)).toNat
  | .b504 => .counted Config.fbSize
  | .s | .abs => .terminated
  | .z | .a | .ab | .w | .abc | .abw | .l => .none

/-! ### The opcode map (30 R70, R71) -/

/-- The format of an opcode byte; a reserved byte is a packet of its own, format Z (30 R71). -/
def formatOf (op : Byte) : Format :=
  match op.toNat with
  | 0x03 | 0x05 | 0x06 | 0x10 => .ab
  | 0x04 => .b504
  | 0x07 => .a
  | 0x08 => .s
  | 0x09 => .abc
  | 0x0A => .abs
  | 0x0B => .abwp
  | 0x0C => .abw
  | 0x0E => .l
  | 0x11 => .w
  | _ => .z

/-- The reserved-space packet of an opcode byte that the map does not define, by the rows of spec/opcode_table.json. -/
def reservedOf (op : Byte) : Instr :=
  if op &&& 0x80#8 = 0x80#8 then .rsvd80 (op.extractLsb' 0 7)
  else if op &&& 0xC0#8 = 0x40#8 then .rsvd40 (op.extractLsb' 0 6)
  else if op &&& 0xE0#8 = 0x20#8 then .rsvd20 (op.extractLsb' 0 5)
  else if op &&& 0xF8#8 = 0x18#8 then .rsvd18 (op.extractLsb' 0 3)
  else if op &&& 0xFC#8 = 0x14#8 then .rsvd14 (op.extractLsb' 0 2)
  else if op &&& 0xFE#8 = 0x12#8 then .rsvd12 (op.extractLsb' 0 1)
  else .rsvd0F

/-- The instruction of a complete packet: opcode, operand latch OPB in arrival order, payload (30 R70). An operand byte the
latch does not hold reads as 0, which no packet of this decoder meets (log 10). -/
def assemble (op : Byte) (opb payload : List Byte) : Instr :=
  let b (k : Nat) : Byte := opb.getD k 0#8
  match op.toNat with
  | 0x00 => .nop
  | 0x01 => .init
  | 0x02 => .clear
  | 0x03 => .gotoxy (b 0) (b 1)
  | 0x04 => .bitmap payload
  | 0x05 => .setpx (b 0) (b 1)
  | 0x06 => .clrpx (b 0) (b 1)
  | 0x07 => .putc (b 0)
  | 0x08 => .puts payload
  | 0x09 => .putcxy (b 0) (b 1) (b 2)
  | 0x0A => .putsxy (b 0) (b 1) payload
  | 0x0B => .wrxy (b 0) (b 1) (half (b 3) (b 2)) payload
  | 0x0C => .clrrng (b 0) (b 1) (half (b 3) (b 2))
  | 0x0D => .sync
  | 0x0E => .line (half (b 1) (b 0)) (half (b 3) (b 2)) (half (b 5) (b 4)) (half (b 7) (b 6)) (half (b 9) (b 8))
  | 0x10 => .rdpix (b 0) (b 1)
  | 0x11 => .rdbyte (half (b 1) (b 0))
  | _ => reservedOf op

/-! ### The packet decoder state DEC (10 R12) -/

/-- DEC: where in the current packet the next command-port byte falls. The latches hold bytes in arrival order (10 R13). -/
inductive Dec where
  /-- The next byte is an opcode. -/
  | idle
  /-- `k` operand bytes are still expected. -/
  | operands (op : Byte) (k : Nat) (latched : List Byte)
  /-- A counted payload, `remaining` bytes to come. -/
  | payloadN (op : Byte) (opb : List Byte) (remaining : Nat) (buf : List Byte)
  /-- A terminated payload, ending at the first STRING_TERM. -/
  | payloadZ (op : Byte) (opb : List Byte) (buf : List Byte)
  deriving DecidableEq, Repr

/-- What one byte does to the decoder: it waits for more, or the byte completed a packet and DEC is IDLE again (10 R12). -/
inductive Progress where
  | more (d : Dec)
  | done (i : Instr)
  deriving DecidableEq, Repr

/-- The operand bytes are latched: the packet is complete or its payload begins (30 R61 (a) to (c)). -/
def afterOperands (op : Byte) (opb : List Byte) : Progress :=
  match (formatOf op).payload opb with
  | .none => .done (assemble op opb [])
  | .counted 0 => .done (assemble op opb [])
  | .counted (n + 1) => .more (.payloadN op opb (n + 1) [])
  | .terminated => .more (.payloadZ op opb [])

/-- One byte written to the command port (10 R12, 30 R61). -/
def Dec.push (d : Dec) (b : Byte) : Progress :=
  match d with
  | .idle =>
    match (formatOf b).noper with
    | 0 => afterOperands b []
    | k + 1 => .more (.operands b (k + 1) [])
  | .operands op k latched =>
    match k with
    | 0 | 1 => afterOperands op (latched ++ [b])
    | k + 2 => .more (.operands op (k + 1) (latched ++ [b]))
  | .payloadN op opb remaining buf =>
    match remaining with
    | 0 | 1 => .done (assemble op opb (buf ++ [b]))
    | r + 2 => .more (.payloadN op opb (r + 1) (buf ++ [b]))
  | .payloadZ op opb buf =>
    if b = Config.stringTerm then .done (assemble op opb buf) else .more (.payloadZ op opb (buf ++ [b]))

/-! ### Decoding a byte list -/

/-- What a byte list decodes to from a decoder state: its first packet and the bytes after it, or a rejection by name: the
bytes end inside a packet. No opcode byte is rejected, for a reserved one is a packet (30 R71). -/
inductive Decoded where
  | packet (i : Instr) (rest : List Byte)
  | incomplete (d : Dec)
  deriving DecidableEq, Repr

/-- Feed bytes to the decoder until a packet completes or the bytes end. -/
def Dec.feed : Dec → List Byte → Decoded
  | d, [] => .incomplete d
  | d, b :: bs =>
    match d.push b with
    | .more d' => Dec.feed d' bs
    | .done i => .packet i bs

/-- The decoder, total on any bytes: the first packet of a stream that begins at DEC = IDLE. -/
def decode (bytes : List Byte) : Decoded := Dec.feed .idle bytes

/-- The bytes of a stream that its first packet takes: all of them where the packet is not complete. -/
def Dec.packetBytes : Dec → List Byte → List Byte
  | _, [] => []
  | d, b :: bs =>
    match d.push b with
    | .more d' => b :: Dec.packetBytes d' bs
    | .done _ => [b]

/-! ### The encoder -/

/-- The opcode byte of an instruction (30 R70; the reserved rows by their match value and free bits). -/
def opcodeOf : Instr → Byte
  | .nop => 0x00#8
  | .init => 0x01#8
  | .clear => 0x02#8
  | .gotoxy _ _ => 0x03#8
  | .bitmap _ => 0x04#8
  | .setpx _ _ => 0x05#8
  | .clrpx _ _ => 0x06#8
  | .putc _ => 0x07#8
  | .puts _ => 0x08#8
  | .putcxy _ _ _ => 0x09#8
  | .putsxy _ _ _ => 0x0A#8
  | .wrxy _ _ _ _ => 0x0B#8
  | .clrrng _ _ _ => 0x0C#8
  | .sync => 0x0D#8
  | .line _ _ _ _ _ => 0x0E#8
  | .rdpix _ _ => 0x10#8
  | .rdbyte _ => 0x11#8
  | .rsvd0F => 0x0F#8
  | .rsvd12 low => 0b0001001#7 ++ low
  | .rsvd14 low => 0b000101#6 ++ low
  | .rsvd18 low => 0b00011#5 ++ low
  | .rsvd20 low => 0b001#3 ++ low
  | .rsvd40 low => 0b01#2 ++ low
  | .rsvd80 low => 0b1#1 ++ low

/-- The bytes of a packet after its opcode byte (30 R66). -/
def operandBytes : Instr → List Byte
  | .gotoxy x page => [x, page]
  | .bitmap payload => payload
  | .setpx x y => [x, y]
  | .clrpx x y => [x, y]
  | .putc c => [c]
  | .puts str => str ++ [Config.stringTerm]
  | .putcxy x page c => [x, page, c]
  | .putsxy x page str => x :: page :: (str ++ [Config.stringTerm])
  | .wrxy x page len payload => x :: page :: loByte len :: hiByte len :: payload
  | .clrrng x page len => [x, page, loByte len, hiByte len]
  | .line x0 y0 x1 y1 mindots =>
    [loByte x0, hiByte x0, loByte y0, hiByte y0, loByte x1, hiByte x1, loByte y1, hiByte y1, loByte mindots, hiByte mindots]
  | .rdpix x y => [x, y]
  | .rdbyte idx => [loByte idx, hiByte idx]
  | .nop | .init | .clear | .sync => []
  | .rsvd0F | .rsvd12 _ | .rsvd14 _ | .rsvd18 _ | .rsvd20 _ | .rsvd40 _ | .rsvd80 _ => []

/-- The bytes of a packet in stream order. -/
def encode (i : Instr) : List Byte := opcodeOf i :: operandBytes i

/-! ### The opcode table as rows (30 R70, R71; spec/opcode_table.json) -/

/-- One row of the opcode table: an opcode byte is of the row when its masked bits equal the pattern. -/
structure OpcodeRow where
  mnemonic : String
  pattern : Byte
  mask : Byte
  deriving DecidableEq, Repr

/-- The byte is of the row. -/
def OpcodeRow.covers (r : OpcodeRow) (op : Byte) : Bool := op &&& r.mask == r.pattern

/-- The 17 defined rows. -/
def definedRows : List OpcodeRow :=
  [⟨"NOP", 0x00#8, 0xFF#8⟩, ⟨"INIT", 0x01#8, 0xFF#8⟩, ⟨"CLEAR", 0x02#8, 0xFF#8⟩, ⟨"GOTOXY", 0x03#8, 0xFF#8⟩,
   ⟨"BITMAP", 0x04#8, 0xFF#8⟩, ⟨"SETPX", 0x05#8, 0xFF#8⟩, ⟨"CLRPX", 0x06#8, 0xFF#8⟩, ⟨"PUTC", 0x07#8, 0xFF#8⟩,
   ⟨"PUTS", 0x08#8, 0xFF#8⟩, ⟨"PUTCXY", 0x09#8, 0xFF#8⟩, ⟨"PUTSXY", 0x0A#8, 0xFF#8⟩, ⟨"WRXY", 0x0B#8, 0xFF#8⟩,
   ⟨"CLRRNG", 0x0C#8, 0xFF#8⟩, ⟨"SYNC", 0x0D#8, 0xFF#8⟩, ⟨"LINE", 0x0E#8, 0xFF#8⟩, ⟨"RDPIX", 0x10#8, 0xFF#8⟩,
   ⟨"RDBYTE", 0x11#8, 0xFF#8⟩]

/-- The 7 rows of the reserved space. -/
def reservedRows : List OpcodeRow :=
  [⟨"RSVD_0F", 0x0F#8, 0xFF#8⟩, ⟨"RSVD_12_13", 0x12#8, 0xFE#8⟩, ⟨"RSVD_14_17", 0x14#8, 0xFC#8⟩,
   ⟨"RSVD_18_1F", 0x18#8, 0xF8#8⟩, ⟨"RSVD_20_3F", 0x20#8, 0xE0#8⟩, ⟨"RSVD_40_7F", 0x40#8, 0xC0#8⟩,
   ⟨"RSVD_80_FF", 0x80#8, 0x80#8⟩]

/-- The whole table. -/
def opcodeRows : List OpcodeRow := definedRows ++ reservedRows

/-- The table's mnemonic of an instruction. -/
def mnemonicOf : Instr → String
  | .nop => "NOP"
  | .init => "INIT"
  | .clear => "CLEAR"
  | .gotoxy _ _ => "GOTOXY"
  | .bitmap _ => "BITMAP"
  | .setpx _ _ => "SETPX"
  | .clrpx _ _ => "CLRPX"
  | .putc _ => "PUTC"
  | .puts _ => "PUTS"
  | .putcxy _ _ _ => "PUTCXY"
  | .putsxy _ _ _ => "PUTSXY"
  | .wrxy _ _ _ _ => "WRXY"
  | .clrrng _ _ _ => "CLRRNG"
  | .sync => "SYNC"
  | .line _ _ _ _ _ => "LINE"
  | .rdpix _ _ => "RDPIX"
  | .rdbyte _ => "RDBYTE"
  | .rsvd0F => "RSVD_0F"
  | .rsvd12 _ => "RSVD_12_13"
  | .rsvd14 _ => "RSVD_14_17"
  | .rsvd18 _ => "RSVD_18_1F"
  | .rsvd20 _ => "RSVD_20_3F"
  | .rsvd40 _ => "RSVD_40_7F"
  | .rsvd80 _ => "RSVD_80_FF"

/-! ### Instructions numbered as spec/opcode_table.json numbers them -/

/-- The bytes of the low `nbits` bits of `w`: byte 0 of the packet is bits 7..0, byte 1 bits 15..8, and so on. -/
def wordBytes (nbits w : Nat) : List Byte :=
  (List.range ((nbits + 7) / 8)).map (fun k => BitVec.ofNat 8 (w >>> (8 * k)))

/-- Every bit above `nbits` is 0: bytes of zeros, as many as the longest packet can still ask for (5 + 65535 bytes). -/
def zeroBytes : List Byte := List.replicate 65540 0x00#8

/-- The instruction the decoder reads from the packet whose bits are `w`. -/
def decodeTableWord (nbits w : Nat) : Option Instr :=
  match decode (wordBytes nbits w ++ zeroBytes) with
  | .packet i _ => some i
  | .incomplete _ => none

end Sys2Proof
end

