-- ==== Sys2Proof/Machine/Reference.lean ====
section
/-! DEFINITION. The REFERENCE values of the OPEN parameters (00_scope.md R4; 93_implementation_defined.md U4, U5, U6, U9): from
general knowledge, not from the source. PRESUMED, log 7, log 17. Only the reset state holds them; no meaning reads them by name. -/

namespace Sys2Proof.Machine

/-- The reference INIT_SEQ (41 R137, U4). PRESUMED, log 7. -/
def referenceInitSeq : List Byte := [0x21#8, 0x14#8, 0xB1#8, 0x20#8, 0x0C#8]

/-- The reference SYNC_PREAMBLE (44 R212, U6). PRESUMED, log 7. -/
def referenceSyncPreamble : List Byte := [0x80#8, 0x40#8]

/-- The reference glyphs of codes 0x20 to 0x2F (U9). PRESUMED, log 7. -/
def referenceFont20 : List Glyph :=
  [⟨0x00#8, 0x00#8, 0x00#8, 0x00#8, 0x00#8⟩, ⟨0x00#8, 0x00#8, 0x5F#8, 0x00#8, 0x00#8⟩,
   ⟨0x00#8, 0x07#8, 0x00#8, 0x07#8, 0x00#8⟩, ⟨0x14#8, 0x7F#8, 0x14#8, 0x7F#8, 0x14#8⟩,
   ⟨0x24#8, 0x2A#8, 0x7F#8, 0x2A#8, 0x12#8⟩, ⟨0x23#8, 0x13#8, 0x08#8, 0x64#8, 0x62#8⟩,
   ⟨0x36#8, 0x49#8, 0x55#8, 0x22#8, 0x50#8⟩, ⟨0x00#8, 0x05#8, 0x03#8, 0x00#8, 0x00#8⟩,
   ⟨0x00#8, 0x1C#8, 0x22#8, 0x41#8, 0x00#8⟩, ⟨0x00#8, 0x41#8, 0x22#8, 0x1C#8, 0x00#8⟩,
   ⟨0x14#8, 0x08#8, 0x3E#8, 0x08#8, 0x14#8⟩, ⟨0x08#8, 0x08#8, 0x3E#8, 0x08#8, 0x08#8⟩,
   ⟨0x00#8, 0x50#8, 0x30#8, 0x00#8, 0x00#8⟩, ⟨0x08#8, 0x08#8, 0x08#8, 0x08#8, 0x08#8⟩,
   ⟨0x00#8, 0x60#8, 0x60#8, 0x00#8, 0x00#8⟩, ⟨0x20#8, 0x10#8, 0x08#8, 0x04#8, 0x02#8⟩]

/-- The reference glyphs of codes 0x30 to 0x3F (U9). PRESUMED, log 7. -/
def referenceFont30 : List Glyph :=
  [⟨0x3E#8, 0x51#8, 0x49#8, 0x45#8, 0x3E#8⟩, ⟨0x00#8, 0x42#8, 0x7F#8, 0x40#8, 0x00#8⟩,
   ⟨0x42#8, 0x61#8, 0x51#8, 0x49#8, 0x46#8⟩, ⟨0x21#8, 0x41#8, 0x45#8, 0x4B#8, 0x31#8⟩,
   ⟨0x18#8, 0x14#8, 0x12#8, 0x7F#8, 0x10#8⟩, ⟨0x27#8, 0x45#8, 0x45#8, 0x45#8, 0x39#8⟩,
   ⟨0x3C#8, 0x4A#8, 0x49#8, 0x49#8, 0x30#8⟩, ⟨0x01#8, 0x71#8, 0x09#8, 0x05#8, 0x03#8⟩,
   ⟨0x36#8, 0x49#8, 0x49#8, 0x49#8, 0x36#8⟩, ⟨0x06#8, 0x49#8, 0x49#8, 0x29#8, 0x1E#8⟩,
   ⟨0x00#8, 0x36#8, 0x36#8, 0x00#8, 0x00#8⟩, ⟨0x00#8, 0x56#8, 0x36#8, 0x00#8, 0x00#8⟩,
   ⟨0x08#8, 0x14#8, 0x22#8, 0x41#8, 0x00#8⟩, ⟨0x14#8, 0x14#8, 0x14#8, 0x14#8, 0x14#8⟩,
   ⟨0x00#8, 0x41#8, 0x22#8, 0x14#8, 0x08#8⟩, ⟨0x02#8, 0x01#8, 0x51#8, 0x09#8, 0x06#8⟩]

/-- The reference glyphs of codes 0x40 to 0x4F (U9). PRESUMED, log 7. -/
def referenceFont40 : List Glyph :=
  [⟨0x32#8, 0x49#8, 0x79#8, 0x41#8, 0x3E#8⟩, ⟨0x7E#8, 0x11#8, 0x11#8, 0x11#8, 0x7E#8⟩,
   ⟨0x7F#8, 0x49#8, 0x49#8, 0x49#8, 0x36#8⟩, ⟨0x3E#8, 0x41#8, 0x41#8, 0x41#8, 0x22#8⟩,
   ⟨0x7F#8, 0x41#8, 0x41#8, 0x22#8, 0x1C#8⟩, ⟨0x7F#8, 0x49#8, 0x49#8, 0x49#8, 0x41#8⟩,
   ⟨0x7F#8, 0x09#8, 0x09#8, 0x09#8, 0x01#8⟩, ⟨0x3E#8, 0x41#8, 0x49#8, 0x49#8, 0x7A#8⟩,
   ⟨0x7F#8, 0x08#8, 0x08#8, 0x08#8, 0x7F#8⟩, ⟨0x00#8, 0x41#8, 0x7F#8, 0x41#8, 0x00#8⟩,
   ⟨0x20#8, 0x40#8, 0x41#8, 0x3F#8, 0x01#8⟩, ⟨0x7F#8, 0x08#8, 0x14#8, 0x22#8, 0x41#8⟩,
   ⟨0x7F#8, 0x40#8, 0x40#8, 0x40#8, 0x40#8⟩, ⟨0x7F#8, 0x02#8, 0x0C#8, 0x02#8, 0x7F#8⟩,
   ⟨0x7F#8, 0x04#8, 0x08#8, 0x10#8, 0x7F#8⟩, ⟨0x3E#8, 0x41#8, 0x41#8, 0x41#8, 0x3E#8⟩]

/-- The reference glyphs of codes 0x50 to 0x5F (U9). PRESUMED, log 7. -/
def referenceFont50 : List Glyph :=
  [⟨0x7F#8, 0x09#8, 0x09#8, 0x09#8, 0x06#8⟩, ⟨0x3E#8, 0x41#8, 0x51#8, 0x21#8, 0x5E#8⟩,
   ⟨0x7F#8, 0x09#8, 0x19#8, 0x29#8, 0x46#8⟩, ⟨0x46#8, 0x49#8, 0x49#8, 0x49#8, 0x31#8⟩,
   ⟨0x01#8, 0x01#8, 0x7F#8, 0x01#8, 0x01#8⟩, ⟨0x3F#8, 0x40#8, 0x40#8, 0x40#8, 0x3F#8⟩,
   ⟨0x1F#8, 0x20#8, 0x40#8, 0x20#8, 0x1F#8⟩, ⟨0x3F#8, 0x40#8, 0x38#8, 0x40#8, 0x3F#8⟩,
   ⟨0x63#8, 0x14#8, 0x08#8, 0x14#8, 0x63#8⟩, ⟨0x07#8, 0x08#8, 0x70#8, 0x08#8, 0x07#8⟩,
   ⟨0x61#8, 0x51#8, 0x49#8, 0x45#8, 0x43#8⟩, ⟨0x00#8, 0x7F#8, 0x41#8, 0x41#8, 0x00#8⟩,
   ⟨0x02#8, 0x04#8, 0x08#8, 0x10#8, 0x20#8⟩, ⟨0x00#8, 0x41#8, 0x41#8, 0x7F#8, 0x00#8⟩,
   ⟨0x04#8, 0x02#8, 0x01#8, 0x02#8, 0x04#8⟩, ⟨0x40#8, 0x40#8, 0x40#8, 0x40#8, 0x40#8⟩]

/-- The reference glyphs of codes 0x60 to 0x6F (U9). PRESUMED, log 7. -/
def referenceFont60 : List Glyph :=
  [⟨0x00#8, 0x01#8, 0x02#8, 0x04#8, 0x00#8⟩, ⟨0x20#8, 0x54#8, 0x54#8, 0x54#8, 0x78#8⟩,
   ⟨0x7F#8, 0x48#8, 0x44#8, 0x44#8, 0x38#8⟩, ⟨0x38#8, 0x44#8, 0x44#8, 0x44#8, 0x20#8⟩,
   ⟨0x38#8, 0x44#8, 0x44#8, 0x48#8, 0x7F#8⟩, ⟨0x38#8, 0x54#8, 0x54#8, 0x54#8, 0x18#8⟩,
   ⟨0x08#8, 0x7E#8, 0x09#8, 0x01#8, 0x02#8⟩, ⟨0x0C#8, 0x52#8, 0x52#8, 0x52#8, 0x3E#8⟩,
   ⟨0x7F#8, 0x08#8, 0x04#8, 0x04#8, 0x78#8⟩, ⟨0x00#8, 0x44#8, 0x7D#8, 0x40#8, 0x00#8⟩,
   ⟨0x20#8, 0x40#8, 0x44#8, 0x3D#8, 0x00#8⟩, ⟨0x7F#8, 0x10#8, 0x28#8, 0x44#8, 0x00#8⟩,
   ⟨0x00#8, 0x41#8, 0x7F#8, 0x40#8, 0x00#8⟩, ⟨0x7C#8, 0x04#8, 0x18#8, 0x04#8, 0x78#8⟩,
   ⟨0x7C#8, 0x08#8, 0x04#8, 0x04#8, 0x78#8⟩, ⟨0x38#8, 0x44#8, 0x44#8, 0x44#8, 0x38#8⟩]

/-- The reference glyphs of codes 0x70 to 0x7F (U9). PRESUMED, log 7. -/
def referenceFont70 : List Glyph :=
  [⟨0x7C#8, 0x14#8, 0x14#8, 0x14#8, 0x08#8⟩, ⟨0x08#8, 0x14#8, 0x14#8, 0x18#8, 0x7C#8⟩,
   ⟨0x7C#8, 0x08#8, 0x04#8, 0x04#8, 0x08#8⟩, ⟨0x48#8, 0x54#8, 0x54#8, 0x54#8, 0x20#8⟩,
   ⟨0x04#8, 0x3F#8, 0x44#8, 0x40#8, 0x20#8⟩, ⟨0x3C#8, 0x40#8, 0x40#8, 0x20#8, 0x7C#8⟩,
   ⟨0x1C#8, 0x20#8, 0x40#8, 0x20#8, 0x1C#8⟩, ⟨0x3C#8, 0x40#8, 0x30#8, 0x40#8, 0x3C#8⟩,
   ⟨0x44#8, 0x28#8, 0x10#8, 0x28#8, 0x44#8⟩, ⟨0x0C#8, 0x50#8, 0x50#8, 0x50#8, 0x3C#8⟩,
   ⟨0x44#8, 0x64#8, 0x54#8, 0x4C#8, 0x44#8⟩, ⟨0x00#8, 0x08#8, 0x36#8, 0x41#8, 0x00#8⟩,
   ⟨0x00#8, 0x00#8, 0x7F#8, 0x00#8, 0x00#8⟩, ⟨0x00#8, 0x41#8, 0x36#8, 0x08#8, 0x00#8⟩,
   ⟨0x10#8, 0x08#8, 0x08#8, 0x10#8, 0x08#8⟩, ⟨0x78#8, 0x46#8, 0x41#8, 0x46#8, 0x78#8⟩]

/-- The reference FONT, codes 0x20 to 0x7F (U9). PRESUMED, log 7. -/
def referenceFont : List Glyph :=
  referenceFont20 ++ referenceFont30 ++ referenceFont40 ++ referenceFont50 ++ referenceFont60 ++ referenceFont70

/-- The reference pin format (41 R136, U5): most significant bit first, SPI mode 0, SCE low for each byte, DC sampled with the
eighth bit. PRESUMED, log 17. -/
def referencePinFormat : PinFormat where
  msbFirst := true
  clockIdle := false
  sampleSecondEdge := false
  sceActive := false
  scePerByte := true
  dcSample := 7

/-- The reference parameters. PRESUMED, log 7, log 17. -/
def referenceParams : Params where
  fontFirst := 0x20#8
  fontLast := 0x7F#8
  font := referenceFont
  initSeq := referenceInitSeq
  syncPreamble := referenceSyncPreamble
  pinFormat := referencePinFormat

end Sys2Proof.Machine
end

