-- ==== Sys2Proof/Machine/State.lean ====
section
/-! DEFINITION. All the state 10_state.md gives one LCD-DE (R30 is its own list), the inputs of the block, and the state after
reset (70_reset_and_hazards.md R251). -/

namespace Sys2Proof.Machine

/-- The five outcome codes of 60 R220. -/
inductive Status where
  | pass
  | zeroDiv
  | oob
  | fail
  | badCmd
  deriving DecidableEq, Repr

/-- An event of the wire trace (10 R27). -/
inductive WireEvent where
  /-- RSTN driven 1 -> 0. -/
  | rstAssert
  /-- RSTN driven 0 -> 1. -/
  | rstRelease
  /-- One byte clocked out with the DC line at a level (0 COMMAND, 1 DATA). -/
  | byte (dc : Bool) (v : Byte)
  deriving DecidableEq, Repr

/-- The levels of the three serial pins and the DC line (10 R22, R24). -/
structure Pins where
  sce : Bool
  sclk : Bool
  sdin : Bool
  dc : Bool
  deriving DecidableEq, Repr

/-- A wire micro-operation (41 R130 to R132): the reset pulse, or one byte as a command (`dc` 0) or as data (`dc` 1). -/
inductive MicroOp where
  | resetPulse
  | send (dc : Bool) (v : Byte)
  deriving DecidableEq, Repr

/-- The command that drives the wire, and so what its last line writes (41 R138, 44 R210). -/
inductive Finish where
  | init
  | sync
  deriving DecidableEq, Repr

/-- A command that a stalled bus holds up: what it still has to do (70 R262). -/
structure Transfer where
  ops : List MicroOp
  finish : Finish
  deriving DecidableEq, Repr

/-- Something that reaches the block from outside, in the order it happens. -/
inductive PortEvent where
  /-- The host writes a byte to the register window (10 R19, R21). -/
  | write (offset : Fin 8) (v : Byte)
  /-- The platform drives TRDY (10 R25). -/
  | trdy (level : Bool)
  /-- BYTE_DONE: how many more bytes the bus will complete; `none` is no limit (10 R26). -/
  | bus (bytes : Option Nat)
  /-- The platform asserts and releases ERST (70 R250). -/
  | erst
  deriving DecidableEq, Repr

/-- The state of one LCD-DE. -/
structure State where
  /-- The framebuffer (10 R10, 20 R41): one entry for each byte written since the contents became unspecified, addresses
  rising. -/
  fb : List Host.Cell
  /-- The model's own counter: which reset the unspecified contents date from (log 2). -/
  fbEra : Nat
  /-- CX, the cursor's column (10 R11). -/
  cx : BitVec 7
  /-- CP, the cursor's page (10 R11). -/
  cp : BitVec 3
  /-- CEND, the cursor is past the end of the display (10 R11). -/
  cend : Bool
  /-- STATUS (10 R14). -/
  status : Byte
  /-- RESULT (10 R16). -/
  result : Byte
  /-- LNCNT (10 R17). -/
  lncnt : Half
  /-- INITED (10 R18). -/
  inited : Bool
  /-- DC, the command/data select pin (10 R22). -/
  dc : Bool
  /-- RSTN, the LCD's reset pin, active low (10 R23). -/
  rstn : Bool
  /-- SCLK, the serial clock pin (10 R24). -/
  sclk : Bool
  /-- SCE, the chip-enable pin (10 R24). -/
  sce : Bool
  /-- SDIN, the serial data pin (10 R24). -/
  sdin : Bool
  /-- The model's own counter: the next free level of SDIN (log 3). -/
  sdinDraw : Nat
  /-- DEC with the operand latch OPB inside it (10 R12, R13). -/
  dec : Dec
  /-- The wire trace, ghost state, oldest event first (10 R27). -/
  wire : List WireEvent
  /-- The pin trace, the model's own ghost state: the levels the pins went through for each byte of the wire trace, oldest byte
  first (41 R136, log 17). -/
  pinTrace : List (List Pins)
  /-- The command a stalled bus holds up, if one does (70 R262). -/
  busy : Option Transfer
  /-- TRDY, an input (10 R25, log 4). -/
  trdy : Bool
  /-- BYTE_DONE, an input: how many more bytes the bus completes before it stalls; `none` is no limit (10 R26, log 5). -/
  bus : Option Nat
  /-- What reaches the block next, soonest first (log 8). -/
  input : List PortEvent
  /-- The constants of the block that the spec leaves open: FONT, INIT_SEQ, SYNC_PREAMBLE, the SPI pin format (10 R28, 00 R4,
  log 7, log 17). -/
  params : Params
  deriving DecidableEq, Repr

/-- Why the machine stops with a fault: it never does. LCD-DE has no trap (60 R228), and no command is without an effect, so
the type has no constructor (log 20). -/
inductive Fault where
  deriving DecidableEq, Repr

/-- Why an instruction has no meaning. -/
inductive Refusal where
  /-- Raised by no arm of this model: an arm of `exec` that is not written yet would raise it. Safe. -/
  | notModelled (mnemonic : String)
  deriving DecidableEq, Repr

/-- The machine right after reset (70 R251, R252). The spec gives every register a value there but SDIN (log 3); the inputs
TRDY, BYTE_DONE and the event list are no state of the block (log 4, log 5, log 8), the parameters are the reference ones
(log 7, log 17), and the framebuffer lists nothing, so that every byte of it is unspecified (log 1). -/
def State.reset : State where
  fb := []
  fbEra := 0
  cx := 0#7
  cp := 0#3
  cend := false
  status := 0#8
  result := 0#8
  lncnt := 0#16
  inited := false
  dc := false
  rstn := true
  sclk := false
  sce := true
  sdin := false
  sdinDraw := 0
  dec := .idle
  wire := []
  pinTrace := []
  busy := none
  trdy := true
  bus := none
  input := []
  params := referenceParams

end Sys2Proof.Machine
end

