-- ==== Sys2Proof/Machine/Ops.lean ====
section
/-! DEFINITION. The named operations over the framebuffer, the status register and the wire that every meaning is written
with (20_memory.md, 41_spi_transport.md, 60_exceptions.md R226, 70_reset_and_hazards.md R250 to R253). -/

namespace Sys2Proof.Machine

/-! ### The framebuffer (20 R41, R45, R46) -/

/-- The framebuffer's memory: a list of cells. -/
abbrev Memory := List Host.Cell

/-- The canonical form: indices rising, none outside 0..503. An index is listed exactly when a command has written it since
the contents became unspecified (log 1). -/
abbrev Memory.wf (m : Memory) : Prop :=
  m.Pairwise (fun c d => c.1 < d.1) ∧ ∀ c ∈ m, c.1 < Config.fbSize

/-- What a command last wrote at an index. -/
def Memory.lookup : Memory → Nat → Option Byte
  | [], _ => none
  | (b, v) :: m, a => if a = b then some v else Memory.lookup m a

/-- FbRead (20 R46): the byte at an index; one that no command has written holds a free value (log 1). -/
def Memory.read (era : Nat) (m : Memory) (a : Nat) : Byte := (Memory.lookup m a).getD (Config.fbUnspecified era a)

/-- Place a byte in the sorted list. -/
def Memory.insert : Memory → Nat → Byte → Memory
  | [], a, v => [(a, v)]
  | (b, w) :: m, a, v =>
    if a < b then (a, v) :: (b, w) :: m
    else if a = b then (a, v) :: m
    else (b, w) :: Memory.insert m a v

/-- FbWrite (20 R46). There is no byte outside 0..503 (20 R45), and nothing is written there. -/
def Memory.write (m : Memory) (a : Nat) (v : Byte) : Memory :=
  if a < Config.fbSize then Memory.insert m a v else m

/-- Write a run of bytes from an index on (20 R44). The indices differ, so the order of the writes cannot be seen: the last
byte goes first (log 18). -/
def Memory.writeRun (m : Memory) (off : Nat) : List Byte → Memory
  | [] => m
  | v :: vs => Memory.write (Memory.writeRun m (off + 1) vs) off v

/-- A run of zero bytes (40 R101, R106). -/
def zeros (n : Nat) : List Byte := List.replicate n 0x00#8

/-- The 504 bytes of the framebuffer in index order (44 R211). -/
def State.fbBytes (s : State) : List Byte := (List.range Config.fbSize).map (Memory.read s.fbEra s.fb)

/-- The framebuffer byte at an index. -/
def State.fbRead (s : State) (a : Nat) : Byte := Memory.read s.fbEra s.fb a

/-- Replace the framebuffer's memory. -/
def State.setFb (s : State) (m : Memory) : State := { s with fb := m }

/-! ### The outcome of a command (60 R220, R226) -/

/-- The code of an outcome in STATUS (60 R220). -/
def Status.code : Status → Byte
  | .pass => 0#8
  | .zeroDiv => 1#8
  | .oob => 2#8
  | .fail => 3#8
  | .badCmd => 4#8

/-- `raise S` (60 R226), the one way a command is abandoned: STATUS takes the code; nothing is saved, nothing else changes,
and the next packet runs. DEC is IDLE already: the byte that completed the packet made it so (10 R12), see `takeInput`. -/
def State.raise (st : Status) (s : State) : State := { s with status := st.code }

/-- A command that did all its work: STATUS <- PASS. -/
def State.pass (s : State) : State := { s with status := Status.pass.code }

/-! ### The wire micro-operations (41 R130 to R136) -/

/-- The bit that SDIN shows for the `n`-th bit sent, `n` from 0 (41 R136, bit order). -/
def bitSent (f : PinFormat) (v : Byte) (n : Nat) : Bool := v.getLsbD (if f.msbFirst then 7 - n else n)

/-- The levels in stage `i` of a byte in flight, 0 to 16 (41 R136). SCE is driven active in stage 0, and SCLK has its eight
pulses in the odd stages. A bit is set up before the edge it is sampled on and held over it: the first edge of its pulse, which
begins stage `2n + 1`, or the second, which begins stage `2n + 2`. DC keeps its level throughout (R130). DESIGN CHOICE, log 17:
SDIN shows the first bit in stage 0 also where the second edge samples, and the last bit in stage 16 after its sampling edge. -/
def pinStage (f : PinFormat) (dc : Bool) (v : Byte) (i : Nat) : Pins where
  sce := f.sceActive
  sclk := f.clockIdle ^^ i % 2 == 1
  sdin := bitSent f v (if f.sampleSecondEdge then (i - 1) / 2 else min 7 (i / 2))
  dc := dc

/-- The levels at which a byte leaves the pins, SCE released if the framing is one byte (41 R136), SDIN at any level (U18). -/
def spiRest (f : PinFormat) (dc sdin : Bool) : Pins where
  sce := if f.scePerByte then !f.sceActive else f.sceActive
  sclk := f.clockIdle
  sdin := sdin
  dc := dc

/-- The levels of the pins while one byte is clocked out, in a pin format (41 R136), and the levels after it. DESIGN CHOICE, log
17: those levels show SDIN still at the last bit sent, where U18 leaves it any value and the pin itself, `State.sdin`, takes a
free one (log 3). -/
def spiFrame (f : PinFormat) (dc : Bool) (v : Byte) : List Pins :=
  (List.range 17).map (pinStage f dc v) ++ [spiRest f dc (bitSent f v 7)]

/-- The levels that the controller sees at its eight sampling edges (41 R136). -/
def samplesOf (f : PinFormat) (stages : List Pins) : List Pins :=
  (List.range 8).filterMap (fun n => stages[if f.sampleSecondEdge then 2 * n + 2 else 2 * n + 1]?)

/-- The pin sequences of the bytes of a wire trace (41 R136). -/
def framesOf (f : PinFormat) (events : List WireEvent) : List (List Pins) :=
  events.filterMap (fun e =>
    match e with
    | .byte dc v => some (spiFrame f dc v)
    | .rstAssert | .rstRelease => none)

/-- Drive the pins. -/
def State.setPins (s : State) (p : Pins) : State := { s with sce := p.sce, sclk := p.sclk, sdin := p.sdin, dc := p.dc }

/-- The bus completes the next byte (10 R26). -/
def State.byteDone (s : State) : Bool := s.bus != some 0

/-- The bus completes at least `n` more bytes (10 R26). -/
def State.busCompletes (s : State) (n : Nat) : Bool :=
  match s.bus with
  | none => true
  | some k => n ≤ k

/-- SEND_COMMAND (`dc` 0, 41 R130) and SEND_DATA (`dc` 1, 41 R131), the byte done: the event on the wire, the byte's pin
sequence on the pin trace, the pins as a byte leaves them and SDIN at a free level (U18, log 3). -/
def State.sendByte (s : State) (dc : Bool) (v : Byte) : State :=
  { s.setPins (spiRest s.params.pinFormat dc (Config.sdinIdle s.sdinDraw)) with
    sdinDraw := s.sdinDraw + 1
    bus := s.bus.map (· - 1)
    wire := s.wire ++ [.byte dc v]
    pinTrace := s.pinTrace ++ [spiFrame s.params.pinFormat dc v] }

/-- RESET_PULSE (41 R132): RSTN down and up again, two events; no byte is clocked meanwhile. -/
def State.resetPulse (s : State) : State :=
  { s with rstn := true, wire := s.wire ++ [.rstAssert, .rstRelease] }

/-- SCE is inactive when a command is over, in every framing (41 R136). -/
def State.releaseSce (s : State) : State := { s with sce := !s.params.pinFormat.sceActive }

/-- The last lines of INIT (41 R138) and SYNC (44 R210). -/
def Finish.apply (f : Finish) (s : State) : State :=
  match f with
  | .init => { s.releaseSce with inited := true }.pass
  | .sync => s.releaseSce.pass

/-- The command is held up with the byte `v` in flight: SCE is active and DC at the byte's level (41 R130, R136), the pins at a
free stage of its sequence; the byte is not on the wire, and nothing after it has happened (70 R262, log 6). -/
def State.hold (s : State) (f : Finish) (dc : Bool) (v : Byte) (ops : List MicroOp) : State :=
  { s.setPins (pinStage s.params.pinFormat dc v (Config.stallPoint s.sdinDraw % 17)) with
    busy := some { ops := .send dc v :: ops, finish := f } }

/-- Do the micro-operations in order, each byte complete before the next begins (41 R134), then the command's last lines. A
byte the bus does not complete holds the command up there (70 R262). -/
def runOps (f : Finish) : List MicroOp → State → State
  | [], s => f.apply s
  | .resetPulse :: ops, s => runOps f ops s.resetPulse
  | .send dc v :: ops, s =>
    if s.byteDone then runOps f ops (s.sendByte dc v) else s.hold f dc v ops

/-- The bytes of a list as command micro-operations (41 R130). -/
def sendCommands (bs : List Byte) : List MicroOp := bs.map (MicroOp.send false)

/-- The bytes of a list as data micro-operations (41 R131). -/
def sendDatas (bs : List Byte) : List MicroOp := bs.map (MicroOp.send true)

/-- A held command goes on where it was. -/
def State.resume (s : State) (t : Transfer) : State := runOps t.finish t.ops { s with busy := none }

/-! ### Reset (70 R250 to R253) -/

/-- ERST: every register at its reset value, SCLK and SCE idle, the framebuffer and SDIN unspecified, a partial packet and a
command at work abandoned, nothing put on the wire and the events already sent kept (70 R251 to R253, log 9). -/
def State.engineReset (s : State) : State :=
  { s with
    fb := []
    fbEra := s.fbEra + 1
    cx := 0#7
    cp := 0#3
    cend := false
    status := 0#8
    result := 0#8
    lncnt := 0#16
    inited := false
    dc := false
    rstn := true
    sclk := s.params.pinFormat.clockIdle
    sce := !s.params.pinFormat.sceActive
    sdin := Config.sdinIdle s.sdinDraw
    sdinDraw := s.sdinDraw + 1
    dec := .idle
    busy := none }

end Sys2Proof.Machine
end

