-- ==== Sys2Proof/Machine/Operands.lean ====
section
/-! DEFINITION. What an operand means: coordinates and their ranges, the pixel- and run-addressing functions and the one-hot
mask (20_memory.md R42, R44, R45), and the fixed-point coordinates of LINE (30_encoding.md R62). -/

namespace Sys2Proof.Machine

/-- A legal column, 0..83; all eight bits take part (30 R72). -/
def xOk (x : Byte) : Bool := x.toNat ≤ Config.xMax

/-- A legal pixel row, 0..47. -/
def yOk (y : Byte) : Bool := y.toNat ≤ Config.yMax

/-- A legal page, 0..5. -/
def pageOk (page : Byte) : Bool := page.toNat ≤ Config.pMax

/-- OFF (20 R44): the index of a column of a page. -/
def runOff (x page : Nat) : Nat := x + Config.cols * page

/-- The run of `n` bytes from an index stays within the framebuffer (20 R45). -/
def runFits (off n : Nat) : Bool := off + n ≤ Config.fbSize

/-- The index of PIX (20 R42). -/
def pixIndex (x y : Nat) : Nat := x + Config.cols * (y / 8)

/-- The mask of PIX (20 R42): one bit. -/
def pixMask (y : Nat) : Byte := 1#8 <<< (y % 8)

/-- The byte with a pixel of it set (20 R42). -/
def setBit (v : Byte) (y : Nat) : Byte := v ||| pixMask y

/-- The byte with a pixel of it cleared (20 R42). -/
def clearBit (v : Byte) (y : Nat) : Byte := v &&& (0xFF#8 ^^^ pixMask y)

/-- Set a pixel: a read-modify-write of one byte (20 R42, 40 R103). -/
def Memory.setPixel (era : Nat) (m : Memory) (x y : Nat) : Memory :=
  Memory.write m (pixIndex x y) (setBit (Memory.read era m (pixIndex x y)) y)

/-- Clear a pixel (20 R42, 40 R104). -/
def Memory.clearPixel (era : Nat) (m : Memory) (x y : Nat) : Memory :=
  Memory.write m (pixIndex x y) (clearBit (Memory.read era m (pixIndex x y)) y)

/-- Test a pixel (20 R42, 40 R107). -/
def Memory.pixel (era : Nat) (m : Memory) (x y : Nat) : Bool :=
  (Memory.read era m (pixIndex x y) &&& pixMask y) != 0#8

/-- The pixel of a state. -/
def State.pixel (s : State) (x y : Nat) : Bool := Memory.pixel s.fbEra s.fb x y

/-- A `q16` operand in units of 1/16: `coord(w)` is this divided by 16 (30 R62). -/
def q16 (w : Half) : Int := w.toInt

end Sys2Proof.Machine
end

