-- ==== Sys2Proof/Machine/Flags.lean ====
section
/-! DEFINITION. What the host reads: OK (10_state.md R15), the composite FLAGS (R20) and the register window (R19, R21). -/

namespace Sys2Proof.Machine

/-- OK, the boolean outcome (10 R15, 60 R223). -/
def State.ok (s : State) : Bool := s.status == 0#8

/-- MIDPKT: a packet is partly received (10 R20). -/
def State.midpkt (s : State) : Bool := s.dec != .idle

/-- FLAGS (10 R20): bit 0 OK, bit 1 INITED, bit 2 CEND, bit 3 MIDPKT, bits 7..4 zero. -/
def State.flags (s : State) : Byte :=
  0#4 ++ BitVec.ofBool s.midpkt ++ BitVec.ofBool s.cend ++ BitVec.ofBool s.inited ++ BitVec.ofBool s.ok

/-- What offset 0..7 of the register window reads as (10 R19). A read changes nothing (R21). -/
def State.readReg (s : State) (offset : Fin 8) : Byte :=
  match offset with
  | 0 => 0#8
  | 1 => s.status
  | 2 => s.flags
  | 3 => 0#1 ++ s.cx
  | 4 => 0#5 ++ s.cp
  | 5 => s.result
  | 6 => loByte s.lncnt
  | 7 => hiByte s.lncnt

/-- A host read: none while a command is held up, for the write that started it has not returned (10 R21, log 13). -/
def State.hostRead (s : State) (offset : Fin 8) : Option Byte :=
  match s.busy with
  | none => some (s.readReg offset)
  | some _ => none

end Sys2Proof.Machine
end

