-- ==== Sys2Proof/Machine/Framebuffer.lean ====
section
/-! DEFINITION. The framebuffer and pixel-mask commands (40_framebuffer_ops.md). -/

namespace Sys2Proof.Machine

/-- NOP (40 R100): nothing, not even STATUS. -/
def execNop (s : State) : Host.Outcome State Fault Refusal := .next s

/-- CLEAR (40 R101): 504 zero bytes; the cursor is not homed. -/
def execClear (s : State) : Host.Outcome State Fault Refusal :=
  .next (s.setFb (Memory.writeRun s.fb 0 (zeros Config.fbSize))).pass

/-- BITMAP (40 R102): the payload replaces the whole framebuffer. -/
def execBitmap (payload : List Byte) (s : State) : Host.Outcome State Fault Refusal :=
  .next (s.setFb (Memory.writeRun s.fb 0 payload)).pass

/-- SETPX (40 R103). -/
def execSetpx (x y : Byte) (s : State) : Host.Outcome State Fault Refusal :=
  .next (if xOk x && yOk y then (s.setFb (Memory.setPixel s.fbEra s.fb x.toNat y.toNat)).pass else s.raise .oob)

/-- CLRPX (40 R104). -/
def execClrpx (x y : Byte) (s : State) : Host.Outcome State Fault Refusal :=
  .next (if xOk x && yOk y then (s.setFb (Memory.clearPixel s.fbEra s.fb x.toNat y.toNat)).pass else s.raise .oob)

/-- A run at a place: the origin check, the region check on the whole run, then the bytes (40 R105, R106, R112; 20 R45). -/
def storeRun (x page : Byte) (len : Nat) (bytes : List Byte) (s : State) : State :=
  if xOk x && pageOk page then
    if runFits (runOff x.toNat page.toNat) len then
      (s.setFb (Memory.writeRun s.fb (runOff x.toNat page.toNat) bytes)).pass
    else s.raise .oob
  else s.raise .oob

/-- WRXY (40 R105). -/
def execWrxy (x page : Byte) (len : Half) (payload : List Byte) (s : State) : Host.Outcome State Fault Refusal :=
  .next (storeRun x page len.toNat payload s)

/-- CLRRNG (40 R106). -/
def execClrrng (x page : Byte) (len : Half) (s : State) : Host.Outcome State Fault Refusal :=
  .next (storeRun x page len.toNat (zeros len.toNat) s)

/-- RDPIX (40 R107): RESULT is written on PASS only. -/
def execRdpix (x y : Byte) (s : State) : Host.Outcome State Fault Refusal :=
  .next (if xOk x && yOk y then
      { s with result := if s.pixel x.toNat y.toNat then 1#8 else 0#8 }.pass
    else s.raise .oob)

/-- RDBYTE (40 R108): RESULT is written on PASS only. -/
def execRdbyte (idx : Half) (s : State) : Host.Outcome State Fault Refusal :=
  .next (if idx.toNat < Config.fbSize then { s with result := s.fbRead idx.toNat }.pass else s.raise .oob)

end Sys2Proof.Machine
end

