-- ==== Sys2Proof/Machine/Line.lean ====
section
/-! DEFINITION. LINE (43_line_rasterizer.md), in the integer-only formulation of R193: raw operands in units of 1/16, `div`
the floor division. Machine/LineRational.lean says the same over the rationals, as R180 to R190 write it. -/

namespace Sys2Proof.Machine

/-- A computed pixel; its coordinates may lie outside the panel. -/
abbrev Point := Int × Int

/-- The four cases of a segment, tested in this order; G has the stepping axis with it (43 R182). -/
inductive Segment where
  | zero
  | vertical
  | horizontal
  | generalX
  | generalY
  deriving DecidableEq, Repr

/-- The case of a segment with the raw deltas `da`, `db` (43 R182): x wins a tie (D8). -/
def segmentOf (da db : Int) : Segment :=
  if da = 0 && db = 0 then .zero
  else if da = 0 then .vertical
  else if db = 0 then .horizontal
  else if db.natAbs ≤ da.natAbs then .generalX
  else .generalY

/-- The raw delta of the stepping axis, DD of 43 R193. -/
def Segment.dominant (da db : Int) : Segment → Int
  | .zero => 0
  | .vertical => db
  | .horizontal => da
  | .generalX => da
  | .generalY => db

/-- One pixel coordinate of natural sample `k`: start `a0`, delta `da`, `m` the magnitude of DD (43 R193). -/
def naturalCoord (a0 da : Int) (m k : Nat) : Int := (a0 * m + 16 * k * da + 8 * m) / (16 * m)

/-- One pixel coordinate of subdivided sample `i` of `q + 1` (43 R193). -/
def subdividedCoord (a0 da : Int) (q i : Nat) : Int := (a0 * q + i * da + 8 * q) / (16 * q)

/-- One pixel coordinate of the zero-length segment (43 R193). -/
def zeroCoord (a0 : Int) : Int := (a0 + 8) / 16

/-- The number of natural samples, K + 1 (43 R184, R193). -/
def naturalCount (m : Nat) : Nat := m / 16 + 1

/-- The natural samples' pixels in order (43 R184). -/
def naturalPoints (a0 b0 da db : Int) (m : Nat) : List Point :=
  (List.range (naturalCount m)).map (fun k => (naturalCoord a0 da m k, naturalCoord b0 db m k))

/-- The subdivided samples' pixels in order, `n` of them (43 R189). -/
def subdividedPoints (a0 b0 da db : Int) (n : Nat) : List Point :=
  (List.range n).map (fun i => (subdividedCoord a0 da (n - 1) i, subdividedCoord b0 db (n - 1) i))

/-- The samples of cases V, H and G: natural where there are at least `mindots` of them, else subdivided (43 R189). -/
def steppedPoints (a0 b0 da db : Int) (m mindots : Nat) : List Point :=
  if mindots ≤ naturalCount m then naturalPoints a0 b0 da db m else subdividedPoints a0 b0 da db mindots

/-- The pixels of a segment in order; `none` is the division guard of case G (43 R188), which no operands reach. -/
def linePoints (x0 y0 x1 y1 mindots : Half) : Option (List Point) :=
  let a0 := q16 x0
  let b0 := q16 y0
  let da := q16 x1 - a0
  let db := q16 y1 - b0
  let m := ((segmentOf da db).dominant da db).natAbs
  match segmentOf da db with
  | .zero => some [(zeroCoord a0, zeroCoord b0)]
  | .vertical => some (steppedPoints a0 b0 da db m mindots.toNat)
  | .horizontal => some (steppedPoints a0 b0 da db m mindots.toNat)
  | .generalX => if m = 0 then none else some (steppedPoints a0 b0 da db m mindots.toNat)
  | .generalY => if m = 0 then none else some (steppedPoints a0 b0 da db m mindots.toNat)

/-- The pixel lies in the box of the panel (43 R191). -/
def inBox (p : Point) : Bool :=
  decide (0 ≤ p.1) && decide (p.1 ≤ Config.xMax) && (decide (0 ≤ p.2) && decide (p.2 ≤ Config.yMax))

/-- Set every pixel of a list in order (43 R192). -/
def Memory.plot (era : Nat) (m : Memory) (ps : List Point) : Memory :=
  ps.foldl (fun m p => Memory.setPixel era m p.1.toNat p.2.toNat) m

/-- LNCNT takes a value. -/
def State.setLncnt (s : State) (n : Nat) : State := { s with lncnt := BitVec.ofNat 16 n }

/-- LINE (43 R180): the guard, the bounds check on every sample before any pixel is set (R191), the commit (R192). -/
def execLine (x0 y0 x1 y1 mindots : Half) (s : State) : Host.Outcome State Fault Refusal :=
  .next (match linePoints x0 y0 x1 y1 mindots with
    | none => (s.setLncnt 0).raise .zeroDiv
    | some ps =>
      if ps.all inBox then ((s.setFb (Memory.plot s.fbEra s.fb ps)).setLncnt ps.length).pass
      else (s.setLncnt 0).raise .oob)

end Sys2Proof.Machine
end

