-- ==== Sys2Proof/Machine/Reserved.lean ====
section
/-! DEFINITION. The seven rows of the reserved opcode space (30_encoding.md R71): each is a packet of one byte that sets STATUS
to BAD_CMD and changes nothing else. -/

namespace Sys2Proof.Machine

/-- RSVD_0F (30 R71). -/
def execRsvd0F (s : State) : Host.Outcome State Fault Refusal := .next (s.raise .badCmd)

/-- RSVD_12_13 (30 R71). -/
def execRsvd12 (s : State) : Host.Outcome State Fault Refusal := .next (s.raise .badCmd)

/-- RSVD_14_17 (30 R71). -/
def execRsvd14 (s : State) : Host.Outcome State Fault Refusal := .next (s.raise .badCmd)

/-- RSVD_18_1F (30 R71). -/
def execRsvd18 (s : State) : Host.Outcome State Fault Refusal := .next (s.raise .badCmd)

/-- RSVD_20_3F (30 R71). -/
def execRsvd20 (s : State) : Host.Outcome State Fault Refusal := .next (s.raise .badCmd)

/-- RSVD_40_7F (30 R71). -/
def execRsvd40 (s : State) : Host.Outcome State Fault Refusal := .next (s.raise .badCmd)

/-- RSVD_80_FF (30 R71). -/
def execRsvd80 (s : State) : Host.Outcome State Fault Refusal := .next (s.raise .badCmd)

end Sys2Proof.Machine
end

