-- ==== Sys2Proof/Machine/Sync.lean ====
section
/-! DEFINITION. SYNC (44_display_sync.md R210 to R214). -/

namespace Sys2Proof.Machine

/-- What one SYNC puts on the wire: SYNC_PREAMBLE as command bytes, then the 504 framebuffer bytes in index order as data
(44 R210, R211). They are read at the start, for nothing can change them before the SYNC is done (20 R49, log 19). -/
def syncOps (s : State) : List MicroOp := sendCommands s.params.syncPreamble ++ sendDatas s.fbBytes

/-- SYNC (44 R210): it transmits whether or not INITED is 1 (R212). -/
def execSync (s : State) : Host.Outcome State Fault Refusal := .next (runOps .sync (syncOps s) s)

end Sys2Proof.Machine
end

