-- ==== Sys2Proof/Machine/Text.lean ====
section
/-! DEFINITION. The glyph blitter and the cursor (42_glyph_text.md). -/

namespace Sys2Proof.Machine

/-! ### The font ROM (10 R28, 20 R43) -/

/-- The ROM holds the code (42 R157). -/
def inFont (p : Params) (c : Byte) : Bool := p.fontFirst.toNat ≤ c.toNat && c.toNat ≤ p.fontLast.toNat

/-- FONT(c), five column bytes; read only for a code the ROM holds (20 R43). -/
def fontBytes (p : Params) (c : Byte) : List Byte :=
  let g := p.font.getD (c.toNat - p.fontFirst.toNat) ⟨0#8, 0#8, 0#8, 0#8, 0#8⟩
  [g.c0, g.c1, g.c2, g.c3, g.c4]

/-- The six bytes of a character cell: the glyph and the blank spacing column (42 R150). -/
def cellBytes (p : Params) (c : Byte) : List Byte := fontBytes p c ++ [0x00#8]

/-! ### The helpers (42 R150, R151) -/

/-- A text cursor: the real one (CX, CP, CEND) or the temporary one of PUTSXY (10 R11, 42 R156). -/
structure Cursor where
  x : Nat
  page : Nat
  past : Bool
  deriving DecidableEq, Repr

/-- The cell may be blitted: the code is in the font, then the region check (42 R150). -/
def cellFits (p : Params) (x page : Nat) (c : Byte) : Bool := inFont p c && runFits (runOff x page) Config.cellW

/-- GLYPH_AT (42 R150): `none` is OOB, with no byte written. -/
def glyphAt (p : Params) (x page : Nat) (c : Byte) (m : Memory) : Option Memory :=
  if cellFits p x page c then some (Memory.writeRun m (runOff x page) (cellBytes p c)) else none

/-- ADVANCE (42 R151). -/
def advance (x page : Nat) : Cursor :=
  if x + Config.cellW ≤ Config.xMax then { x := x + Config.cellW, page := page, past := false }
  else if page < Config.pMax then { x := 0, page := page + 1, past := false }
  else { x := 0, page := Config.pMax, past := true }

/-! ### Writing at a cursor (42 R153, R154, R156) -/

/-- A string being written: the first failure so far, the cursor, the framebuffer. -/
structure Pen where
  status : Status
  cur : Cursor
  mem : Memory
  deriving DecidableEq, Repr

/-- A character is refused: nothing is written, the cursor stays, and the first failure is the one that counts (42 R154). -/
def Pen.refuse (pen : Pen) : Pen := { pen with status := if pen.status = .pass then .oob else pen.status }

/-- One character at the cursor: refused past the end, refused where GLYPH_AT is, else blitted and the cursor advanced
(42 R153, the loop bodies of R154 and R156). -/
def Pen.put (p : Params) (pen : Pen) (c : Byte) : Pen :=
  if pen.cur.past then pen.refuse
  else
    match glyphAt p pen.cur.x pen.cur.page c pen.mem with
    | none => pen.refuse
    | some m => { pen with cur := advance pen.cur.x pen.cur.page, mem := m }

/-- Every character of a string, one by one (42 R154). -/
def Pen.putAll (p : Params) (pen : Pen) (str : List Byte) : Pen := str.foldl (Pen.put p) pen

/-- The real cursor. -/
def State.cursor (s : State) : Cursor := { x := s.cx.toNat, page := s.cp.toNat, past := s.cend }

/-- The pen of a command that writes at a cursor. -/
def State.penAt (s : State) (cur : Cursor) : Pen := { status := .pass, cur := cur, mem := s.fb }

/-- Take a pen's framebuffer and status; the real cursor stays. -/
def State.takeInk (s : State) (pen : Pen) : State := { s with fb := pen.mem, status := pen.status.code }

/-- Take a pen's cursor as the real one. -/
def State.setCursor (s : State) (cur : Cursor) : State :=
  { s with cx := BitVec.ofNat 7 cur.x, cp := BitVec.ofNat 3 cur.page, cend := cur.past }

/-! ### The commands -/

/-- GOTOXY (42 R152). -/
def execGotoxy (x page : Byte) (s : State) : Host.Outcome State Fault Refusal :=
  .next (if xOk x && pageOk page then (s.setCursor { x := x.toNat, page := page.toNat, past := false }).pass
    else s.raise .oob)

/-- The pen that writes a string at the real cursor. -/
def State.cursorPen (s : State) (str : List Byte) : Pen := (s.penAt s.cursor).putAll s.params str

/-- PUTC (42 R153): one character at the real cursor. -/
def execPutc (c : Byte) (s : State) : Host.Outcome State Fault Refusal :=
  .next ((s.setCursor (s.cursorPen [c]).cur).takeInk (s.cursorPen [c]))

/-- PUTS (42 R154): each byte of the string at the real cursor; cells blitted before a failure stay. -/
def execPuts (str : List Byte) (s : State) : Host.Outcome State Fault Refusal :=
  .next ((s.setCursor (s.cursorPen str).cur).takeInk (s.cursorPen str))

/-- PUTCXY (42 R155): one cell at explicit coordinates; the real cursor is neither read nor written. -/
def execPutcxy (x page c : Byte) (s : State) : Host.Outcome State Fault Refusal :=
  .next (if xOk x && pageOk page then
      match glyphAt s.params x.toNat page.toNat c s.fb with
      | none => s.raise .oob
      | some m => (s.setFb m).pass
    else s.raise .oob)

/-- PUTSXY (42 R156): a string at a temporary cursor, discarded afterwards. -/
def execPutsxy (x page : Byte) (str : List Byte) (s : State) : Host.Outcome State Fault Refusal :=
  .next (if xOk x && pageOk page then
      s.takeInk ((s.penAt { x := x.toNat, page := page.toNat, past := false }).putAll s.params str)
    else s.raise .oob)

end Sys2Proof.Machine
end

