-- ==== Sys2Proof/Machine/Transport.lean ====
section
/-! DEFINITION. INIT (41_spi_transport.md R138). -/

namespace Sys2Proof.Machine

/-- What a successful INIT puts on the wire: the reset pulse, then INIT_SEQ as command bytes (41 R138). -/
def initOps (p : Params) : List MicroOp := .resetPulse :: sendCommands p.initSeq

/-- INIT (41 R138): TRDY is sampled once, here (10 R25). -/
def execInit (s : State) : Host.Outcome State Fault Refusal :=
  .next (if s.trdy then runOps .init (initOps s.params) s else { s with inited := false }.raise .fail)

end Sys2Proof.Machine
end

