-- ==== Sys2Proof/Machine/Dispatch.lean ====
section
/-! DEFINITION. The dispatch: one arm a constructor of Instr, each one call of its meaning. -/

namespace Sys2Proof.Machine

def exec (i : Instr) (s : State) : Host.Outcome State Fault Refusal :=
  match i with
  | .nop => Sys2Proof.Machine.execNop s
  | .init => Sys2Proof.Machine.execInit s
  | .clear => Sys2Proof.Machine.execClear s
  | .gotoxy x page => Sys2Proof.Machine.execGotoxy x page s
  | .bitmap payload => Sys2Proof.Machine.execBitmap payload s
  | .setpx x y => Sys2Proof.Machine.execSetpx x y s
  | .clrpx x y => Sys2Proof.Machine.execClrpx x y s
  | .putc c => Sys2Proof.Machine.execPutc c s
  | .puts str => Sys2Proof.Machine.execPuts str s
  | .putcxy x page c => Sys2Proof.Machine.execPutcxy x page c s
  | .putsxy x page str => Sys2Proof.Machine.execPutsxy x page str s
  | .wrxy x page len payload => Sys2Proof.Machine.execWrxy x page len payload s
  | .clrrng x page len => Sys2Proof.Machine.execClrrng x page len s
  | .sync => Sys2Proof.Machine.execSync s
  | .line x0 y0 x1 y1 mindots => Sys2Proof.Machine.execLine x0 y0 x1 y1 mindots s
  | .rdpix x y => Sys2Proof.Machine.execRdpix x y s
  | .rdbyte idx => Sys2Proof.Machine.execRdbyte idx s
  | .rsvd0F => Sys2Proof.Machine.execRsvd0F s
  | .rsvd12 _ => Sys2Proof.Machine.execRsvd12 s
  | .rsvd14 _ => Sys2Proof.Machine.execRsvd14 s
  | .rsvd18 _ => Sys2Proof.Machine.execRsvd18 s
  | .rsvd20 _ => Sys2Proof.Machine.execRsvd20 s
  | .rsvd40 _ => Sys2Proof.Machine.execRsvd40 s
  | .rsvd80 _ => Sys2Proof.Machine.execRsvd80 s

end Sys2Proof.Machine
end

