-- ==== Sys2Proof/Machine/Input.lean ====
section
/-! DEFINITION. What one step consumes: the events that reach the block, up to and including the byte that completes a packet
(10_state.md R12, R21; 30_encoding.md R64, R65; 70_reset_and_hazards.md R250 to R253, R262). -/

namespace Sys2Proof.Machine

/-- Consume events until a byte completes a packet, and run its command; or until ERST; or until there is nothing left, when
the engine waits with DEC where it is. A write to CMD pushes one byte into the decoder and, before the last byte of its
packet, changes only DEC (10 R21, 30 R64); a write to another offset is ignored (10 R21). -/
def takeInput : List PortEvent → State → Host.Outcome State Fault Refusal
  | [], s => .next { s with input := [] }
  | .write offset v :: es, s =>
    if offset = 0 then
      match s.dec.push v with
      | .more d => takeInput es { s with dec := d }
      | .done i => exec i { s with dec := .idle, input := es }
    else takeInput es s
  | .trdy level :: es, s => takeInput es { s with trdy := level }
  | .bus bytes :: es, s => takeInput es { s with bus := bytes }
  | .erst :: es, s => .next { s with input := es }.engineReset

/-- The next thing that reaches a held engine: the first platform event, which does not wait for a host whose write has not
returned. The host's writes, `waiting`, stay to come in their order (10 R21, 70 R262, log 8). -/
def heldInput (waiting : List PortEvent) : List PortEvent → State → State
  | [], s => s
  | .write offset v :: es, s => heldInput (waiting ++ [.write offset v]) es s
  | .trdy level :: es, s => { s with trdy := level, input := waiting ++ es }
  | .bus bytes :: es, s => { s with bus := bytes, input := waiting ++ es }
  | .erst :: es, s => { s with input := waiting ++ es }.engineReset

/-- A command is held up by the bus. It goes on as soon as the bus completes a byte; until then only the platform can act, and
if it never does the engine hangs (70 R262). -/
def heldStep (t : Transfer) (s : State) : Host.Outcome State Fault Refusal :=
  .next (if s.byteDone then s.resume t else heldInput [] s.input s)

/-- One step of the engine. -/
def engineStep (s : State) : Host.Outcome State Fault Refusal :=
  match s.busy with
  | some t => heldStep t s
  | none => takeInput s.input s

/-- Bytes as the host writes that push them. -/
def pushes (bytes : List Byte) : List PortEvent := bytes.map (PortEvent.write 0)

end Sys2Proof.Machine
end

