-- ==== Sys2Proof/Machine/Step.lean ====
section
/-! DEFINITION. One step of the machine, and the placing of one packet where the next step takes it. -/

namespace Sys2Proof.Machine

/-- One step. -/
def step (s : State) : Host.Outcome State Fault Refusal := engineStep s

/-- The packet whose bits are `w`, and every bit above `nbits` zero, placed where the next step takes its bytes: at the front of
the events to come, with no packet partly received and no command held up (log 8, log 21). -/
def State.withFetchWord (s : State) (nbits w : Nat) : State :=
  { s with
    dec := .idle
    busy := none
    input := pushes (Dec.packetBytes .idle (wordBytes nbits w ++ zeroBytes)) ++ s.input }

end Sys2Proof.Machine
end

