-- ==== Sys2Proof/Machine/LineRational.lean ====
section
/-! DEFINITION. The samples of LINE over exact rationals, written from 43_line_rasterizer.md R180 to R190 alone. No meaning
calls it: it is the clear form that the integer form of Machine/Line.lean is stated equal to (log 14). -/

namespace Sys2Proof.Machine

/-- `coord(w) = sext_16(w) / 16` (30 R62). -/
def coord (w : Half) : Rat := (q16 w : Rat) / 16

/-- `rnd(q) = floor(q + 1/2)` (43 R183). -/
def rnd (q : Rat) : Int := (q + 1 / 2).floor

/-- The delta along the stepping axis in cases V, H and G (43 R182): x wins a tie. -/
def ddom (dx dy : Rat) : Rat := if dx = 0 then dy else if dy = 0 then dx else if |dy| ≤ |dx| then dx else dy

/-- K = floor(|ddom|) (43 R184). -/
def stepCount (dx dy : Rat) : Nat := |ddom dx dy|.floor.toNat

/-- SAMPLES: the parameters `t` in order (43 R184, R187, R189). -/
def samples (dx dy : Rat) (mindots : Nat) : List Rat :=
  if dx = 0 ∧ dy = 0 then [0]
  else if mindots ≤ stepCount dx dy + 1 then
    (List.range (stepCount dx dy + 1)).map (fun k : Nat => (k : Rat) / |ddom dx dy|)
  else (List.range mindots).map (fun i : Nat => (i : Rat) / ((mindots : Rat) - 1))

/-- P of 43 R180: the rounded real point of each sample. -/
def samplePoints (x0 y0 x1 y1 : Rat) (mindots : Nat) : List Point :=
  (samples (x1 - x0) (y1 - y0) mindots).map (fun t => (rnd (x0 + t * (x1 - x0)), rnd (y0 + t * (y1 - y0))))

end Sys2Proof.Machine
end

