-- ==== Sys2Proof/Safety.lean ====
section
/-! DEFINITION. What counts as a sound state: the ranges and forms that 10_state.md, 20_memory.md and 60_exceptions.md promise,
for every state a step can reach. -/

namespace Sys2Proof.Machine

/-- DEC is a state the decoder can reach (10 R12, 30 R61): the byte counts add up, and a terminated payload holds no
terminator yet. -/
def decOk : Dec → Bool
  | .idle => true
  | .operands op k latched => k != 0 && latched.length + k == (formatOf op).noper
  | .payloadN op opb remaining buf =>
    remaining != 0 && opb.length == (formatOf op).noper && (formatOf op).payload opb == .counted (remaining + buf.length)
  | .payloadZ op opb buf => opb.length == (formatOf op).noper && (formatOf op).payload opb == .terminated && strOk buf

/-- The cursor registers are legal, and past the end they stand at (0, 5) (10 R11, 42 R151). -/
def cursorOk (s : State) : Bool :=
  decide (s.cx.toNat ≤ Config.xMax) && decide (s.cp.toNat ≤ Config.pMax) && (!s.cend || (s.cx == 0#7 && s.cp == 5#3))

/-- STATUS holds a code the engine can produce: ZERO_DIV never (10 R14, 43 R188, U15). -/
def statusOk (v : Byte) : Bool := v == 0#8 || v == 2#8 || v == 3#8 || v == 4#8

/-- Between steps RSTN is inactive (10 R23, 41 R132); with no command held up SCLK idles and SCE is inactive, and with a byte in
flight SCE is active (41 R136, in the pin format of the parameters, log 17; log 6 for the byte in flight). -/
def pinsOk (s : State) : Bool :=
  s.rstn &&
    match s.busy with
    | none => s.sclk == s.params.pinFormat.clockIdle && s.sce == !s.params.pinFormat.sceActive
    | some _ => s.sce == s.params.pinFormat.sceActive

/-- The pin trace holds the pin sequences of the bytes of the wire trace, no other and none too few (10 R27, 41 R136). -/
def traceOk (s : State) : Bool := s.pinTrace == framesOf s.params.pinFormat s.wire

/-- A command is held up only between packets (10 R21, 30 R65), and at a byte, whose level DC has (41 R130, R134, 70 R262). -/
def busyOk (s : State) : Bool :=
  match s.busy with
  | none => true
  | some t =>
    s.dec == .idle &&
      match t.ops with
      | .send dc _ :: _ => s.dc == dc
      | _ => false

/-- The invariant of the machine. -/
def State.Inv (s : State) : Prop :=
  Memory.wf s.fb ∧ cursorOk s = true ∧ statusOk s.status = true ∧ pinsOk s = true ∧ decOk s.dec = true ∧
    busyOk s = true ∧ traceOk s = true

end Sys2Proof.Machine
end

