-- ==== Sys2Proof/Certificates/Slice0/Obligations.lean ====
section
/-! DEFINITION. The statements about LCD-DE, from the numbered rules of spec/. Each is written with the rule's own numbers
rather than with the model's helper functions wherever the rule gives them. -/

open Sys2Proof Sys2Proof.Machine

namespace Sys2Proof.Machine

/-! ### Words the statements use -/

/-- The state after one PUTC. -/
def afterPutc (s : State) (c : Byte) : State :=
  match exec (.putc c) s with
  | .next t => t
  | .fault _ => s
  | .refused _ => s

/-- The state after PUTC of every byte of a string, one by one. -/
def afterPutcs (s : State) (str : List Byte) : State := str.foldl afterPutc s

/-- What STATUS holds after each of those PUTCs. -/
def putcStatuses : State → List Byte → List Byte
  | _, [] => []
  | s, c :: cs => (afterPutc s c).status :: putcStatuses (afterPutc s c) cs

/-- The seven instructions of the reserved space. -/
def isReserved : Instr → Bool
  | .rsvd0F | .rsvd12 _ | .rsvd14 _ | .rsvd18 _ | .rsvd20 _ | .rsvd40 _ | .rsvd80 _ => true
  | _ => false

/-- The larger raw delta of a segment: 16 * |ddom| of 43 R182. -/
def rawLength (x0 y0 x1 y1 : Half) : Nat := max (x1.toInt - x0.toInt).natAbs (y1.toInt - y0.toInt).natAbs

/-- The events of one SYNC (44 R210). -/
def syncFrame (s : State) : List WireEvent :=
  s.params.syncPreamble.map (WireEvent.byte false) ++ (List.range 504).map (fun i => WireEvent.byte true (s.fbRead i))

/-- The events of one successful INIT (41 R138). -/
def initFrame (s : State) : List WireEvent :=
  [.rstAssert, .rstRelease] ++ s.params.initSeq.map (WireEvent.byte false)

end Sys2Proof.Machine

/-! ### Reset (70_reset_and_hazards.md) -/

/-- R251, the rows that name a value: the state right after reset. The inputs, the parameters and SDIN are not in it: their
values in State.reset are the model's choice (log 3, 4, 5, 7, 8). SCLK and SCE are the reference pin format's idle levels, and
that the pin trace, the model's own, is empty is the model's choice too (log 17). -/
def Obligations.ResetStateHoldsSpecValues : Prop :=
  State.reset.cx = 0#7 ∧ State.reset.cp = 0#3 ∧ State.reset.cend = false ∧ State.reset.status = 0#8 ∧
  State.reset.result = 0#8 ∧ State.reset.lncnt = 0#16 ∧ State.reset.inited = false ∧ State.reset.dc = false ∧
  State.reset.rstn = true ∧ State.reset.sclk = false ∧ State.reset.sce = true ∧ State.reset.dec = .idle ∧
  State.reset.wire = [] ∧ State.reset.pinTrace = [] ∧ ∀ i, State.reset.fbRead i = Config.fbUnspecified 0 i

/-- R250 to R253: ERST, from any state, also in mid-packet and while a command is held up, gives every register its reset
value, abandons what was at work, puts nothing on the wire and leaves the framebuffer unspecified anew. That the events already
sent stay in the trace is log 9's reading, and SCLK and SCE take the idle levels of the parameters' pin format (log 17). -/
def Obligations.ErstResetsFromAnyState : Prop :=
  ∀ (s : State) (es : List PortEvent), s.input = .erst :: es → (s.busy ≠ none → s.bus = some 0) →
    ∃ t, step s = .next t ∧ t.cx = 0#7 ∧ t.cp = 0#3 ∧ t.cend = false ∧ t.status = 0#8 ∧ t.result = 0#8 ∧ t.lncnt = 0#16 ∧
      t.inited = false ∧ t.dc = false ∧ t.rstn = true ∧ t.sclk = s.params.pinFormat.clockIdle ∧
      t.sce = !s.params.pinFormat.sceActive ∧ t.dec = .idle ∧ t.busy = none ∧ t.wire = s.wire ∧ t.pinTrace = s.pinTrace ∧
      t.input = es ∧ t.params = s.params ∧ ∀ i, t.fbRead i = Config.fbUnspecified (s.fbEra + 1) i

/-- R252: reset puts nothing on the wire, and the engine waits at DEC = IDLE. That waiting is a step that answers the same state,
where no event is to come, is the model's choice (log 8), and so is that State.reset has no event to come. -/
def Obligations.EngineWaitsAfterReset : Prop :=
  State.reset.wire = [] ∧ State.reset.dec = .idle ∧ State.reset.busy = none ∧ step State.reset = .next State.reset

/-- The invariant holds at reset. -/
def Obligations.ResetMeetsInvariant : Prop := State.reset.Inv

/-! ### Encoding (30_encoding.md) -/

/-- R70, R71: every value of the opcode byte is of exactly one row of the table, and the packet it starts, whatever bytes
follow, is an instruction of that row. -/
def Obligations.EveryOpcodeByteIsOfOneRow : Prop :=
  (∀ op : Byte, (opcodeRows.filter (fun r => r.covers op)).length = 1) ∧
  ∀ (op : Byte) (opb payload : List Byte), ∀ r ∈ opcodeRows, r.covers op = true →
    mnemonicOf (assemble op opb payload) = r.mnemonic

/-- R76: words written out from the spec's encodings decode to the instructions they stand for. -/
def Obligations.SpecExamplesDecode : Prop :=
  decode [0x03#8, 0x0C#8, 0x03#8] = .packet (.gotoxy 12#8 3#8) [] ∧
  decode [0x08#8, 0x41#8, 0x42#8, 0x00#8] = .packet (.puts [0x41#8, 0x42#8]) [] ∧
  decode [0x0B#8, 0x52#8, 0x00#8, 0x03#8, 0x00#8, 0xFF#8, 0x81#8, 0xFF#8] =
    .packet (.wrxy 82#8 0#8 3#16 [0xFF#8, 0x81#8, 0xFF#8]) [] ∧
  decode [0x0E#8, 0xA0#8, 0x00#8, 0x00#8, 0x00#8, 0xA0#8, 0x00#8, 0xF0#8, 0x02#8, 0x01#8, 0x00#8] =
    .packet (.line 160#16 0#16 160#16 752#16 1#16) [] ∧
  decode [0x11#8, 0xB2#8, 0x00#8] = .packet (.rdbyte 178#16) [] ∧
  decode [0x0F#8, 0x05#8] = .packet .rsvd0F [0x05#8]

/-- R60, R61, R66: decoding the encoding of any well-formed instruction, whatever bytes follow it, gives it back and leaves
those bytes: no operand bit is dropped and no byte too many or too few is taken. -/
def Obligations.DecodeOfEncodeIsIdentity : Prop :=
  ∀ (i : Instr) (rest : List Byte), i.wf = true → decode (encode i ++ rest) = .packet i rest

/-- R60, R61: whatever a byte list decodes to is a well-formed instruction, and the bytes taken are its encoding: each stream
has one reading. -/
def Obligations.DecodedPacketIsItsEncoding : Prop :=
  ∀ (bytes rest : List Byte) (i : Instr), decode bytes = .packet i rest → i.wf = true ∧ bytes = encode i ++ rest

/-- R73, R261 (b): a string packet whose terminator has not arrived is no packet yet: the decoder waits, holding every byte of
the string. -/
def Obligations.UnterminatedStringKeepsWaiting : Prop :=
  ∀ (x page : Byte) (str : List Byte), strOk str = true →
    decode (0x08#8 :: str) = .incomplete (.payloadZ 0x08#8 [] str) ∧
    decode (0x0A#8 :: x :: page :: str) = .incomplete (.payloadZ 0x0A#8 [x, page] str)

/-! ### The step (10_state.md R12, R21; 30_encoding.md R64, R65) -/

/-- When the bytes the host pushes next decode to a packet, the step runs exactly that packet's instruction, with DEC at IDLE and
the events after the packet still to come. -/
def Obligations.StepRunsTheDecodedPacket : Prop :=
  ∀ (s : State) (bytes : List Byte) (i : Instr) (es : List PortEvent),
    s.busy = none → s.dec = .idle → s.input = pushes bytes ++ es → decode bytes = .packet i [] →
    step s = exec i { s with input := es }

/-- R21, R64: bytes that do not complete a packet change only DEC, and DEC is where the bytes bring it. -/
def Obligations.PartialPacketChangesOnlyDec : Prop :=
  ∀ (s : State) (bytes : List Byte) (d : Dec), s.busy = none → s.input = pushes bytes → s.dec.feed bytes = .incomplete d →
    step s = .next { s with dec := d, input := [] }

/-- R21: a write to offset 1 to 7 is ignored: the step is as if it were not there. -/
def Obligations.WritesToOtherOffsetsAreIgnored : Prop :=
  ∀ (s : State) (offset : Fin 8) (v : Byte) (es : List PortEvent),
    s.busy = none → offset ≠ 0 → s.input = .write offset v :: es → step s = step { s with input := es }

/-- R228 says that there are no traps. That every step, from every state, has a next state, and so has every instruction, is the
model's own: it has no fault and no refusal (log 20), and an engine that waits or that a stalled bus holds up, which R262 calls
stuck, steps to the same state (log 8, log 20). -/
def Obligations.NothingTraps : Prop :=
  (∀ s : State, ∃ t, step s = .next t) ∧ ∀ (i : Instr) (s : State), ∃ t, exec i s = .next t

/-- R19, R20: what the eight registers read as, and FLAGS bit by bit. -/
def Obligations.RegisterWindowReads : Prop :=
  ∀ s : State,
    s.readReg 0 = 0#8 ∧ s.readReg 1 = s.status ∧ (s.readReg 3).toNat = s.cx.toNat ∧ (s.readReg 4).toNat = s.cp.toNat ∧
    s.readReg 5 = s.result ∧ (s.readReg 6).toNat = s.lncnt.toNat % 256 ∧ (s.readReg 7).toNat = s.lncnt.toNat / 256 ∧
    (s.readReg 2).getLsbD 0 = decide (s.status = 0#8) ∧ (s.readReg 2).getLsbD 1 = s.inited ∧
    (s.readReg 2).getLsbD 2 = s.cend ∧ (s.readReg 2).getLsbD 3 = decide (s.dec ≠ .idle) ∧
    ∀ k, 4 ≤ k → (s.readReg 2).getLsbD k = false

/-! ### Framebuffer and pixel-mask commands (40_framebuffer_ops.md) -/

/-- R100. -/
def Obligations.NopChangesNothing : Prop :=
  encode .nop = [0x00#8] ∧ ∀ s : State, exec .nop s = .next s

/-- R101: every byte of the framebuffer is zero, STATUS is PASS, and nothing else has changed (the cursor is not homed). -/
def Obligations.ClearZeroesEveryByte : Prop :=
  encode .clear = [0x02#8] ∧
  ∀ s : State, ∃ m, exec .clear s = .next { s with fb := m, status := 0#8 } ∧
    ∀ i, i < 504 → Memory.read s.fbEra m i = 0x00#8

/-- R102: the payload replaces the framebuffer byte for byte, STATUS is PASS, and nothing else has changed. -/
def Obligations.BitmapReplacesTheFramebuffer : Prop :=
  ∀ (s : State) (payload : List Byte), payload.length = 504 →
    encode (.bitmap payload) = 0x04#8 :: payload ∧
    ∃ m, exec (.bitmap payload) s = .next { s with fb := m, status := 0#8 } ∧
      ∀ i, i < 504 → Memory.read s.fbEra m i = payload.getD i 0#8

/-- R103 (with PIX of R42): one bit of one byte is set, or nothing but STATUS changes when a coordinate is out of range. -/
def Obligations.SetpxSetsOneBit : Prop :=
  ∀ (s : State) (x y : Byte),
    encode (.setpx x y) = [0x05#8, x, y] ∧
    (83 < x.toNat ∨ 47 < y.toNat → exec (.setpx x y) s = .next { s with status := 2#8 }) ∧
    (x.toNat ≤ 83 → y.toNat ≤ 47 → ∃ m, exec (.setpx x y) s = .next { s with fb := m, status := 0#8 } ∧
      Memory.read s.fbEra m (x.toNat + 84 * (y.toNat / 8)) =
        s.fbRead (x.toNat + 84 * (y.toNat / 8)) ||| (1#8 <<< (y.toNat % 8)) ∧
      ∀ i, i ≠ x.toNat + 84 * (y.toNat / 8) → Memory.read s.fbEra m i = s.fbRead i)

/-- R104. -/
def Obligations.ClrpxClearsOneBit : Prop :=
  ∀ (s : State) (x y : Byte),
    encode (.clrpx x y) = [0x06#8, x, y] ∧
    (83 < x.toNat ∨ 47 < y.toNat → exec (.clrpx x y) s = .next { s with status := 2#8 }) ∧
    (x.toNat ≤ 83 → y.toNat ≤ 47 → ∃ m, exec (.clrpx x y) s = .next { s with fb := m, status := 0#8 } ∧
      Memory.read s.fbEra m (x.toNat + 84 * (y.toNat / 8)) =
        s.fbRead (x.toNat + 84 * (y.toNat / 8)) &&& (0xFF#8 ^^^ (1#8 <<< (y.toNat % 8))) ∧
      ∀ i, i ≠ x.toNat + 84 * (y.toNat / 8) → Memory.read s.fbEra m i = s.fbRead i)

/-- R105: the whole run is checked before any byte is written; a run that fits is written linearly and nothing else is; and the
payload is part of the packet whatever becomes of it. -/
def Obligations.WrxyWritesTheWholeRunOrNothing : Prop :=
  ∀ (s : State) (x page : Byte) (len : Half) (payload : List Byte), payload.length = len.toNat →
    encode (.wrxy x page len payload) = 0x0B#8 :: x :: page :: loByte len :: hiByte len :: payload ∧
    (∀ rest, decode (0x0B#8 :: x :: page :: loByte len :: hiByte len :: (payload ++ rest)) =
      .packet (.wrxy x page len payload) rest) ∧
    (83 < x.toNat ∨ 5 < page.toNat ∨ 504 < x.toNat + 84 * page.toNat + len.toNat →
      exec (.wrxy x page len payload) s = .next { s with status := 2#8 }) ∧
    (x.toNat ≤ 83 → page.toNat ≤ 5 → x.toNat + 84 * page.toNat + len.toNat ≤ 504 →
      ∃ m, exec (.wrxy x page len payload) s = .next { s with fb := m, status := 0#8 } ∧
        (∀ i, i < len.toNat → Memory.read s.fbEra m (x.toNat + 84 * page.toNat + i) = payload.getD i 0#8) ∧
        ∀ a, a < x.toNat + 84 * page.toNat ∨ x.toNat + 84 * page.toNat + len.toNat ≤ a →
          Memory.read s.fbEra m a = s.fbRead a)

/-- R106: as WRXY, with zeros; and it is exactly WRXY with an all-zero payload. -/
def Obligations.ClrrngZeroesTheWholeRunOrNothing : Prop :=
  ∀ (s : State) (x page : Byte) (len : Half),
    encode (.clrrng x page len) = [0x0C#8, x, page, loByte len, hiByte len] ∧
    exec (.clrrng x page len) s = exec (.wrxy x page len (List.replicate len.toNat 0x00#8)) s ∧
    (83 < x.toNat ∨ 5 < page.toNat ∨ 504 < x.toNat + 84 * page.toNat + len.toNat →
      exec (.clrrng x page len) s = .next { s with status := 2#8 }) ∧
    (x.toNat ≤ 83 → page.toNat ≤ 5 → x.toNat + 84 * page.toNat + len.toNat ≤ 504 →
      ∃ m, exec (.clrrng x page len) s = .next { s with fb := m, status := 0#8 } ∧
        (∀ i, i < len.toNat → Memory.read s.fbEra m (x.toNat + 84 * page.toNat + i) = 0x00#8) ∧
        ∀ a, a < x.toNat + 84 * page.toNat ∨ x.toNat + 84 * page.toNat + len.toNat ≤ a →
          Memory.read s.fbEra m a = s.fbRead a)

/-- R107: RESULT is the pixel on PASS, unchanged on OOB; the framebuffer is not written. -/
def Obligations.RdpixReadsOneBit : Prop :=
  ∀ (s : State) (x y : Byte),
    encode (.rdpix x y) = [0x10#8, x, y] ∧
    (83 < x.toNat ∨ 47 < y.toNat → exec (.rdpix x y) s = .next { s with status := 2#8 }) ∧
    (x.toNat ≤ 83 → y.toNat ≤ 47 →
      exec (.rdpix x y) s = .next { s with
        result := if s.fbRead (x.toNat + 84 * (y.toNat / 8)) &&& (1#8 <<< (y.toNat % 8)) = 0#8 then 0#8 else 1#8
        status := 0#8 })

/-- R108: RESULT is the byte on PASS, unchanged on OOB. -/
def Obligations.RdbyteReadsOneByte : Prop :=
  ∀ (s : State) (idx : Half),
    encode (.rdbyte idx) = [0x11#8, loByte idx, hiByte idx] ∧
    (503 < idx.toNat → exec (.rdbyte idx) s = .next { s with status := 2#8 }) ∧
    (idx.toNat ≤ 503 → exec (.rdbyte idx) s = .next { s with result := s.fbRead idx.toNat, status := 0#8 })

/-- R110: the laws of the mask engine: set then read is 1, clear then read is 0, the two are mutually inverse on a pixel, every
other pixel keeps its value. -/
def Obligations.PixelSetAndClearAreInverse : Prop :=
  ∀ (s : State) (x y : Byte), x.toNat ≤ 83 → y.toNat ≤ 47 →
    ∃ t u, exec (.setpx x y) s = .next t ∧ exec (.clrpx x y) s = .next u ∧
      t.pixel x.toNat y.toNat = true ∧ u.pixel x.toNat y.toNat = false ∧
      (∃ v, exec (.clrpx x y) t = .next v ∧ ∀ i, v.fbRead i = u.fbRead i) ∧
      (∃ v, exec (.setpx x y) u = .next v ∧ ∀ i, v.fbRead i = t.fbRead i) ∧
      ∀ x' y', x' ≤ 83 → y' ≤ 47 → (x', y') ≠ (x.toNat, y.toNat) →
        t.pixel x' y' = s.pixel x' y' ∧ u.pixel x' y' = s.pixel x' y'

/-- R110: two SETPX or CLRPX on different pixels commute, as the framebuffer is read. -/
def Obligations.PixelWritesCommute : Prop :=
  ∀ (s : State) (x y x' y' : Byte) (i j : Instr),
    (i = .setpx x y ∨ i = .clrpx x y) → (j = .setpx x' y' ∨ j = .clrpx x' y') → (x, y) ≠ (x', y') →
    ∃ t u t' u', exec i s = .next t ∧ exec j t = .next u ∧ exec j s = .next t' ∧ exec i t' = .next u' ∧
      ∀ a, u.fbRead a = u'.fbRead a

/-! ### Text (42_glyph_text.md) -/

/-- R152: a legal place is stored and CEND is cleared; an illegal one changes nothing but STATUS; and no other instruction takes
CEND from 1 to 0. -/
def Obligations.GotoxyMovesTheCursor : Prop :=
  (∀ (i : Instr) (s t : State), s.cend = true → (∀ x page, i ≠ .gotoxy x page) → exec i s = .next t → t.cend = true) ∧
  ∀ (s : State) (x page : Byte),
    encode (.gotoxy x page) = [0x03#8, x, page] ∧
    (83 < x.toNat ∨ 5 < page.toNat → exec (.gotoxy x page) s = .next { s with status := 2#8 }) ∧
    (x.toNat ≤ 83 → page.toNat ≤ 5 → ∃ t, exec (.gotoxy x page) s = .next t ∧
      t.cx.toNat = x.toNat ∧ t.cp.toNat = page.toNat ∧ t = { s with cx := t.cx, cp := t.cp, cend := false, status := 0#8 })

/-- R153 with R150, R151 and R28: PUTC is refused past the end, outside the font, or where the cell passes index 503, and then
changes only STATUS; else it writes the glyph and a blank column and advances the cursor, wrapping at column 83 and stopping past
page 5. Column k of the glyph is column k of entry `c - FONT_FIRST` of the font; that the font holds an entry for every code of
its range is R28's demand on the parameters, Params.wf (log 7). -/
def Obligations.PutcBlitsAndAdvances : Prop :=
  ∀ (s : State) (c : Byte),
    encode (.putc c) = [0x07#8, c] ∧
    (s.cend = true ∨ c.toNat < s.params.fontFirst.toNat ∨ s.params.fontLast.toNat < c.toNat ∨
        504 < s.cx.toNat + 84 * s.cp.toNat + 6 → exec (.putc c) s = .next { s with status := 2#8 }) ∧
    (s.cend = false → s.params.fontFirst.toNat ≤ c.toNat → c.toNat ≤ s.params.fontLast.toNat →
      s.cx.toNat + 84 * s.cp.toNat + 6 ≤ 504 →
      ∃ t, exec (.putc c) s = .next t ∧
        (s.params.wf → ∃ g, s.params.font[c.toNat - s.params.fontFirst.toNat]? = some g ∧
          t.fbRead (s.cx.toNat + 84 * s.cp.toNat) = g.c0 ∧ t.fbRead (s.cx.toNat + 84 * s.cp.toNat + 1) = g.c1 ∧
          t.fbRead (s.cx.toNat + 84 * s.cp.toNat + 2) = g.c2 ∧ t.fbRead (s.cx.toNat + 84 * s.cp.toNat + 3) = g.c3 ∧
          t.fbRead (s.cx.toNat + 84 * s.cp.toNat + 4) = g.c4) ∧
        t.fbRead (s.cx.toNat + 84 * s.cp.toNat + 5) = 0x00#8 ∧
        (∀ a, a < s.cx.toNat + 84 * s.cp.toNat ∨ s.cx.toNat + 84 * s.cp.toNat + 6 ≤ a → t.fbRead a = s.fbRead a) ∧
        t.cx.toNat = (if s.cx.toNat + 6 ≤ 83 then s.cx.toNat + 6 else 0) ∧
        t.cp.toNat = (if s.cx.toNat + 6 ≤ 83 then s.cp.toNat else if s.cp.toNat < 5 then s.cp.toNat + 1 else 5) ∧
        t.cend = decide (83 < s.cx.toNat + 6 ∧ 5 ≤ s.cp.toNat) ∧
        t = { s with fb := t.fb, cx := t.cx, cp := t.cp, cend := t.cend, status := 0#8 })

/-- R154: PUTS is PUTC of each byte in turn, with the framebuffer and the cursor that gives, and the status of the first that
failed, or PASS. -/
def Obligations.PutsIsPutcOfEachByte : Prop :=
  ∀ (s : State) (str : List Byte),
    encode (.puts str) = 0x08#8 :: (str ++ [0x00#8]) ∧
    exec (.puts str) s =
      .next { afterPutcs s str with status := ((putcStatuses s str).find? (fun v => v != 0#8)).getD 0#8 }

/-- R155 with R150 and R28: one cell at explicit coordinates; the cursor is neither read nor written. Column k of the glyph is
column k of entry `c - FONT_FIRST` of the font (Params.wf, log 7). -/
def Obligations.PutcxyBlitsWithoutTheCursor : Prop :=
  ∀ (s : State) (x page c : Byte),
    encode (.putcxy x page c) = [0x09#8, x, page, c] ∧
    (83 < x.toNat ∨ 5 < page.toNat ∨ c.toNat < s.params.fontFirst.toNat ∨ s.params.fontLast.toNat < c.toNat ∨
        504 < x.toNat + 84 * page.toNat + 6 → exec (.putcxy x page c) s = .next { s with status := 2#8 }) ∧
    (x.toNat ≤ 83 → page.toNat ≤ 5 → s.params.fontFirst.toNat ≤ c.toNat → c.toNat ≤ s.params.fontLast.toNat →
      x.toNat + 84 * page.toNat + 6 ≤ 504 →
      ∃ m, exec (.putcxy x page c) s = .next { s with fb := m, status := 0#8 } ∧
        (s.params.wf → ∃ g, s.params.font[c.toNat - s.params.fontFirst.toNat]? = some g ∧
          Memory.read s.fbEra m (x.toNat + 84 * page.toNat) = g.c0 ∧
          Memory.read s.fbEra m (x.toNat + 84 * page.toNat + 1) = g.c1 ∧
          Memory.read s.fbEra m (x.toNat + 84 * page.toNat + 2) = g.c2 ∧
          Memory.read s.fbEra m (x.toNat + 84 * page.toNat + 3) = g.c3 ∧
          Memory.read s.fbEra m (x.toNat + 84 * page.toNat + 4) = g.c4) ∧
        Memory.read s.fbEra m (x.toNat + 84 * page.toNat + 5) = 0x00#8 ∧
        ∀ a, a < x.toNat + 84 * page.toNat ∨ x.toNat + 84 * page.toNat + 6 ≤ a → Memory.read s.fbEra m a = s.fbRead a)

/-- R156: PUTSXY is PUTS at a temporary cursor: the framebuffer and the status of a PUTS that started there, and nothing else
changes; an illegal origin changes only STATUS. -/
def Obligations.PutsxyIsPutsAtATemporaryCursor : Prop :=
  ∀ (s : State) (x page : Byte) (str : List Byte),
    encode (.putsxy x page str) = 0x0A#8 :: x :: page :: (str ++ [0x00#8]) ∧
    (83 < x.toNat ∨ 5 < page.toNat → exec (.putsxy x page str) s = .next { s with status := 2#8 }) ∧
    (x.toNat ≤ 83 → page.toNat ≤ 5 →
      ∃ t, exec (.puts str) { s with cx := BitVec.ofNat 7 x.toNat, cp := BitVec.ofNat 3 page.toNat, cend := false } = .next t ∧
        exec (.putsxy x page str) s = .next { s with fb := t.fb, status := t.status })

/-- R160: character `j` of up to 84 characters of the font from (0,0) stands in the cell at column `6 * (j mod 14)` of page
`j / 14`, its five glyph columns (Params.wf, log 7) and a blank one, and no byte past the cells is written; so 14 characters
fill page 0 and leave the cursor at (0,1), and 84 fill the display and leave it past the end; the next PUTC is refused and
changes only STATUS. -/
def Obligations.DisplayHoldsEightyFourCells : Prop :=
  ∀ (s : State) (str : List Byte), s.cx = 0#7 → s.cp = 0#3 → s.cend = false →
    (∀ c ∈ str, s.params.fontFirst.toNat ≤ c.toNat ∧ c.toNat ≤ s.params.fontLast.toNat) →
    (str.length ≤ 84 → s.params.wf → ∀ (j : Nat) (c : Byte), str[j]? = some c →
      ∃ g, s.params.font[c.toNat - s.params.fontFirst.toNat]? = some g ∧
        (List.range 6).map (fun k => (afterPutcs s str).fbRead (6 * (j % 14) + 84 * (j / 14) + k)) =
          [g.c0, g.c1, g.c2, g.c3, g.c4, 0x00#8]) ∧
    (str.length ≤ 84 → ∀ a, 6 * str.length ≤ a → (afterPutcs s str).fbRead a = s.fbRead a) ∧
    (str.length = 14 → (afterPutcs s str).cx = 0#7 ∧ (afterPutcs s str).cp = 1#3 ∧ (afterPutcs s str).cend = false) ∧
    (str.length = 84 → (afterPutcs s str).cx = 0#7 ∧ (afterPutcs s str).cp = 5#3 ∧ (afterPutcs s str).cend = true ∧
      (afterPutcs s str).status = 0#8 ∧
      ∀ c, exec (.putc c) (afterPutcs s str) = .next { afterPutcs s str with status := 2#8 })

/-! ### LINE (43_line_rasterizer.md) -/

/-- R180, over the rationals as R181 to R192 write it: any sample pixel outside the panel rejects the whole line, else every
sample pixel is set, no other bit changes, and LNCNT is the number of samples. -/
def Obligations.LinePlotsTheRationalSamples : Prop :=
  ∀ (s : State) (x0 y0 x1 y1 mindots : Half) (ps : List Point),
    ps = samplePoints (coord x0) (coord y0) (coord x1) (coord y1) mindots.toNat →
    encode (.line x0 y0 x1 y1 mindots) =
      [0x0E#8, loByte x0, hiByte x0, loByte y0, hiByte y0, loByte x1, hiByte x1, loByte y1, hiByte y1, loByte mindots,
       hiByte mindots] ∧
    ((∃ p ∈ ps, p.1 < 0 ∨ 83 < p.1 ∨ p.2 < 0 ∨ 47 < p.2) →
      exec (.line x0 y0 x1 y1 mindots) s = .next { s with lncnt := 0#16, status := 2#8 }) ∧
    ((∀ p ∈ ps, 0 ≤ p.1 ∧ p.1 ≤ 83 ∧ 0 ≤ p.2 ∧ p.2 ≤ 47) →
      ∃ m, exec (.line x0 y0 x1 y1 mindots) s =
          .next { s with fb := m, lncnt := BitVec.ofNat 16 ps.length, status := 0#8 } ∧
        (∀ x y, x ≤ 83 → y ≤ 47 →
          Memory.pixel s.fbEra m x y = (s.pixel x y || decide (((x : Int), (y : Int)) ∈ ps))) ∧
        ∀ a, 504 ≤ a → Memory.read s.fbEra m a = s.fbRead a)

/-- R193: the integer form gives the samples of the rational form, for all operands. -/
def Obligations.LineIntegerFormIsExact : Prop :=
  ∀ (x0 y0 x1 y1 mindots : Half),
    linePoints x0 y0 x1 y1 mindots = some (samplePoints (coord x0) (coord y0) (coord x1) (coord y1) mindots.toNat)

/-- R188: no operand values make LINE return ZERO_DIV. -/
def Obligations.LineNeverDividesByZero : Prop :=
  ∀ (s : State) (x0 y0 x1 y1 mindots : Half), ∃ t, exec (.line x0 y0 x1 y1 mindots) s = .next t ∧ t.status ≠ 1#8

/-- R195, R187: a LINE that ends with PASS has LNCNT = max(n_nat, mindots), or 1 for a zero-length segment. -/
def Obligations.LncntMeetsMindots : Prop :=
  ∀ (s t : State) (x0 y0 x1 y1 mindots : Half), exec (.line x0 y0 x1 y1 mindots) s = .next t → t.status = 0#8 →
    t.lncnt.toNat =
      if x0 = x1 ∧ y0 = y1 then 1 else max (rawLength x0 y0 x1 y1 / 16 + 1) mindots.toNat

/-- R191: a LINE that does not end with PASS leaves every register but STATUS and LNCNT, and all of the framebuffer, as it
was, with LNCNT 0 and STATUS OOB. -/
def Obligations.RejectedLineIsANoOp : Prop :=
  ∀ (s t : State) (x0 y0 x1 y1 mindots : Half), exec (.line x0 y0 x1 y1 mindots) s = .next t → t.status ≠ 0#8 →
    t = { s with lncnt := 0#16, status := 2#8 }

/-- R190, R196 (a): along the stepping axis, natural sample `k` is `k` pixels from the first, in the direction of the segment. -/
def Obligations.NaturalSamplesStepByOnePixel : Prop :=
  ∀ (a0 d : Int) (k : Nat), d ≠ 0 → naturalCoord a0 d d.natAbs k = (a0 + 8) / 16 + k * d.sign

/-- R196 (d): where the stepping axis spans a whole number of units, in natural mode, which every `mindots` up to n_nat gives
(R189), the reversed segment plots the same pixels in the opposite order. -/
def Obligations.ReversedSegmentPlotsTheSamePixels : Prop :=
  ∀ (x0 y0 x1 y1 mindots : Half), rawLength x0 y0 x1 y1 % 16 = 0 → mindots.toNat ≤ rawLength x0 y0 x1 y1 / 16 + 1 →
    linePoints x1 y1 x0 y0 mindots = (linePoints x0 y0 x1 y1 mindots).map List.reverse

/-! ### INIT and SYNC (41_spi_transport.md, 44_display_sync.md) -/

/-- R138: INIT with TRDY 0 puts nothing on the wire and reports FAIL; with TRDY 1, and a bus that completes its bytes, it puts
the reset pulse and INIT_SEQ as command bytes on the wire and sets INITED. -/
def Obligations.InitPulsesResetAndSendsTheSequence : Prop :=
  encode .init = [0x01#8] ∧
  ∀ s : State,
    (s.trdy = false → exec .init s = .next { s with inited := false, status := 3#8 }) ∧
    (s.trdy = true → s.busCompletes s.params.initSeq.length = true →
      ∃ t, exec .init s = .next t ∧ t.wire = s.wire ++ initFrame s ∧ t.inited = true ∧ t.status = 0#8 ∧ t.rstn = true ∧
        (s.params.initSeq ≠ [] → t.dc = false) ∧
        t = { s with
              rstn := t.rstn, dc := t.dc, sclk := t.sclk, sce := t.sce, sdin := t.sdin, sdinDraw := t.sdinDraw,
              bus := t.bus, wire := t.wire, pinTrace := t.pinTrace, inited := t.inited, status := t.status })

/-- R210, R211: SYNC, with a bus that completes its bytes, puts SYNC_PREAMBLE as command bytes and then the 504 framebuffer bytes
in index order as data bytes on the wire, and reports PASS; the framebuffer and the other registers are as before. -/
def Obligations.SyncStreamsTheFramebuffer : Prop :=
  encode .sync = [0x0D#8] ∧
  ∀ s : State, s.busCompletes (s.params.syncPreamble.length + 504) = true →
    ∃ t, exec .sync s = .next t ∧ t.wire = s.wire ++ syncFrame s ∧ t.status = 0#8 ∧ t.dc = true ∧
      t = { s with
            dc := t.dc, sclk := t.sclk, sce := t.sce, sdin := t.sdin, sdinDraw := t.sdinDraw, bus := t.bus,
            wire := t.wire, pinTrace := t.pinTrace, status := t.status }

/-- R136, R4: INIT and SYNC clock every byte out in the pin format of the parameters, and leave SCLK and SCE at its idle levels.
The shape of the format, the pin trace that shows the bytes' pin sequences, and that SCE is released at the end in every framing
are the model's own (log 17). -/
def Obligations.InitAndSyncDriveThePinFormat : Prop :=
  ∀ s : State,
    (s.trdy = true → s.params.initSeq ≠ [] → s.busCompletes s.params.initSeq.length = true →
      ∃ t, exec .init s = .next t ∧ t.pinTrace = s.pinTrace ++ framesOf s.params.pinFormat (initFrame s) ∧
        t.sclk = s.params.pinFormat.clockIdle ∧ t.sce = !s.params.pinFormat.sceActive) ∧
    (s.busCompletes (s.params.syncPreamble.length + 504) = true →
      ∃ t, exec .sync s = .next t ∧ t.pinTrace = s.pinTrace ++ framesOf s.params.pinFormat (syncFrame s) ∧
        t.sclk = s.params.pinFormat.clockIdle ∧ t.sce = !s.params.pinFormat.sceActive)

/-- R213: what a SYNC appends depends on the framebuffer's bytes and the preamble alone: two states that agree on them, whatever
else they hold, put the same events on the wire. -/
def Obligations.SyncIsAFunctionOfTheFramebuffer : Prop :=
  ∀ s s' : State, (∀ i, i < 504 → s.fbRead i = s'.fbRead i) → s.params.syncPreamble = s'.params.syncPreamble →
    s.busCompletes (s.params.syncPreamble.length + 504) = true →
    s'.busCompletes (s.params.syncPreamble.length + 504) = true →
    ∃ t t' frame, exec .sync s = .next t ∧ exec .sync s' = .next t' ∧ t.wire = s.wire ++ frame ∧ t'.wire = s'.wire ++ frame

/-- R262, R134: a SYNC whose bus completes fewer bytes than it needs is stuck inside the command: the wire holds the bytes sent
and STATUS is not written. The rest is the model's own: the host can read no register then (log 13, deduced from R21), SCE is
active for the byte in flight (log 6, from the pin format R136), and as long as nothing but host writes, which wait, is to come
the step answers the same state (log 8). -/
def Obligations.StalledSyncHangs : Prop :=
  ∀ (s : State) (k : Nat), s.bus = some k → k < s.params.syncPreamble.length + 504 →
    ∃ t, exec .sync s = .next t ∧ t.busy ≠ none ∧ t.wire = s.wire ++ (syncFrame s).take k ∧
      t.pinTrace = s.pinTrace ++ framesOf s.params.pinFormat ((syncFrame s).take k) ∧ t.sce = s.params.pinFormat.sceActive ∧
      t.status = s.status ∧
      t.fb = s.fb ∧ t.input = s.input ∧ (∀ offset, t.hostRead offset = none) ∧
      ((∀ e ∈ s.input, ∃ offset v, e = .write offset v) → step t = .next t)

/-- R262, R138: the same of INIT, which has pulsed RSTN by then and does not write INITED. As there, the host's lack of a read
(log 13, deduced from R21), the level of SCE (log 6) and the step that answers the same state while only host writes are to
come (log 8) are the model's own. -/
def Obligations.StalledInitHangs : Prop :=
  ∀ (s : State) (k : Nat), s.trdy = true → s.bus = some k → k < s.params.initSeq.length →
    ∃ t, exec .init s = .next t ∧ t.busy ≠ none ∧ t.wire = s.wire ++ (initFrame s).take (k + 2) ∧
      t.pinTrace = s.pinTrace ++ framesOf s.params.pinFormat ((initFrame s).take (k + 2)) ∧
      t.sce = s.params.pinFormat.sceActive ∧ t.status = s.status ∧
      t.inited = s.inited ∧ t.fb = s.fb ∧ t.input = s.input ∧ (∀ offset, t.hostRead offset = none) ∧
      ((∀ e ∈ s.input, ∃ offset v, e = .write offset v) → step t = .next t)

/-- R262, R134: a stall only delays: when the bus completes bytes again, the held command ends as it would have without the
stall. That the two states are equal in every field is the model's own: the byte in flight is sent as a whole and its pin
sequence stands once on the pin trace (log 6, log 17), SDIN takes the same free value in both (log 3), where U18 leaves it any
value, and the rest of the command is one step (log 8). -/
def Obligations.StallOnlyDelays : Prop :=
  ∀ (s : State) (k : Nat) (i : Instr), (i = .init ∨ i = .sync) → s.busy = none →
    ∃ t u, exec i { s with bus := some k } = .next t ∧ exec i { s with bus := none } = .next u ∧
      (t.busy ≠ none → step { t with bus := none } = .next u)

/-- R136, the reference pin format (general knowledge, log 17): bit 7 is sampled first, SCE is low until the byte is done, and DC
keeps its level. That SDIN is still at bit 0 in the last entry is the model's choice (log 17). -/
def Obligations.SpiFrameSendsTheTopBitFirst : Prop :=
  ∀ (dc : Bool) (v : Byte),
    ((spiFrame referencePinFormat dc v).filter (fun p => p.sclk)).map (fun p => p.sdin) =
      (List.range 8).map (fun k => v.getLsbD (7 - k)) ∧
    (∀ p ∈ spiFrame referencePinFormat dc v, p.dc = dc) ∧
    (∀ p ∈ (spiFrame referencePinFormat dc v).dropLast, p.sce = false) ∧
    (spiFrame referencePinFormat dc v).getLast? = some { sce := true, sclk := false, sdin := v.getLsbD 0, dc := dc }

/-- R136 with the format a parameter (U5, R4; log 17): in every pin format the eight sampling edges read the byte's bits in the
format's order, each bit being on SDIN before the edge it is sampled on, DC has the byte's level at the bit it is sampled with
and throughout, SCE is active until the byte is done, and then the pins are at the format's rest levels, SDIN at the last bit sent
by the model's choice (log 17). -/
def Obligations.SpiFrameIsReadInEveryFormat : Prop :=
  ∀ (f : PinFormat) (dc : Bool) (v : Byte),
    (samplesOf f (spiFrame f dc v)).map (fun p => p.sdin) =
      (List.range 8).map (fun k => v.getLsbD (if f.msbFirst then 7 - k else k)) ∧
    (samplesOf f (spiFrame f dc v))[f.dcSample.val]?.map (fun p => p.dc) = some dc ∧
    (∀ n, n < 8 → ∃ p q,
      (spiFrame f dc v)[if f.sampleSecondEdge then 2 * n + 1 else 2 * n]? = some p ∧ (samplesOf f (spiFrame f dc v))[n]? = some q ∧
        p.sdin = q.sdin ∧ q.sclk = (f.clockIdle ^^ !f.sampleSecondEdge) ∧ p.sclk = !q.sclk) ∧
    (∀ p ∈ spiFrame f dc v, p.dc = dc) ∧ (∀ p ∈ (spiFrame f dc v).dropLast, p.sce = f.sceActive) ∧
    (spiFrame f dc v).getLast? = some (spiRest f dc (v.getLsbD (if f.msbFirst then 0 else 7)))

/-! ### The reserved space (30_encoding.md R71) -/

/-- R71: a reserved byte is a packet of one byte, whatever follows, and its instruction sets STATUS to BAD_CMD and changes
nothing else. -/
def Obligations.ReservedByteIsBadCmd : Prop :=
  (∀ (op : Byte) (rest : List Byte), op = 0x0F#8 ∨ 0x12 ≤ op.toNat →
    ∃ i, decode (op :: rest) = .packet i rest ∧ isReserved i = true) ∧
  ∀ (i : Instr) (s : State), isReserved i = true → exec i s = .next { s with status := 4#8 }

/-! ### Rules of the whole machine -/

/-- R133, R214, R109, R159: no instruction but INIT and SYNC reaches a pin, the wire trace or the bus. -/
def Obligations.OnlyInitAndSyncReachTheWire : Prop :=
  ∀ (i : Instr) (s : State), i ≠ .init → i ≠ .sync → ∃ t, exec i s = .next t ∧ t.wire = s.wire ∧
    t.pinTrace = s.pinTrace ∧ t.dc = s.dc ∧ t.rstn = s.rstn ∧ t.sclk = s.sclk ∧ t.sce = s.sce ∧ t.sdin = s.sdin ∧
    t.sdinDraw = s.sdinDraw ∧ t.bus = s.bus ∧ t.busy = s.busy

/-- R162: the cursor is written by GOTOXY, PUTC and PUTS only. -/
def Obligations.OnlyThreeCommandsMoveTheCursor : Prop :=
  ∀ (i : Instr) (s t : State), (∀ x page, i ≠ .gotoxy x page) → (∀ c, i ≠ .putc c) → (∀ str, i ≠ .puts str) →
    exec i s = .next t → t.cx = s.cx ∧ t.cp = s.cp ∧ t.cend = s.cend

/-- R10: the framebuffer is written only by the mutators R10 names. -/
def Obligations.OnlyMutatorsWriteTheFramebuffer : Prop :=
  ∀ (i : Instr) (s t : State),
    (i = .nop ∨ i = .init ∨ i = .sync ∨ (∃ x page, i = .gotoxy x page) ∨ (∃ x y, i = .rdpix x y) ∨ (∃ idx, i = .rdbyte idx) ∨
      isReserved i = true) →
    exec i s = .next t → t.fb = s.fb ∧ t.fbEra = s.fbEra

/-- R16, R17, R18: RESULT is written only by RDPIX and RDBYTE, LNCNT only by LINE, INITED only by INIT; and no instruction writes
TRDY, the parameters, DEC or the events to come. -/
def Obligations.RegistersHaveTheirOwnWriters : Prop :=
  ∀ (i : Instr) (s t : State), exec i s = .next t →
    ((∀ x y, i ≠ .rdpix x y) → (∀ idx, i ≠ .rdbyte idx) → t.result = s.result) ∧
    ((∀ x0 y0 x1 y1 mindots, i ≠ .line x0 y0 x1 y1 mindots) → t.lncnt = s.lncnt) ∧
    (i ≠ .init → t.inited = s.inited) ∧ t.params = s.params ∧ t.trdy = s.trdy ∧ t.dec = s.dec ∧ t.input = s.input

/-- R226: an error is precise: a command other than a string that ends with a status other than PASS has changed nothing but
STATUS, and LNCNT for LINE. -/
def Obligations.FailedCommandsChangeNothing : Prop :=
  ∀ (i : Instr) (s t : State), i ≠ .nop → i ≠ .init → i ≠ .sync → (∀ str, i ≠ .puts str) →
    (∀ x page str, i ≠ .putsxy x page str) → exec i s = .next t → t.status ≠ 0#8 →
    t = { s with status := t.status, lncnt := t.lncnt } ∧
      ((∀ x0 y0 x1 y1 mindots, i ≠ .line x0 y0 x1 y1 mindots) → t.lncnt = s.lncnt)

/-- R27, R252, R253: the wire trace only grows: what a step leaves begins with what was there, and so with the pin trace. That
ERST keeps them is log 9's reading, and the pin trace is the model's own (log 17). -/
def Obligations.WireTraceOnlyGrows : Prop :=
  ∀ s t : State, step s = .next t → s.wire <+: t.wire ∧ s.pinTrace <+: t.pinTrace

/-- Every step keeps the invariant of Safety.lean: the framebuffer's canonical form, the cursor's and STATUS's legal values, RSTN
inactive, DEC a state the decoder can reach, and a command held up only between packets and at a byte. The clauses on the serial
pins and on the pin trace are the model's choice: SCLK and SCE at the idle levels of the parameters' pin format with no command
held up, and the pin trace the pin sequences of the wire trace's bytes (log 17), SCE active and DC at the byte's level with a byte
in flight (log 6). -/
def Obligations.StepKeepsInvariant : Prop :=
  ∀ s t : State, s.Inv → step s = .next t → t.Inv
end

