-- ==== Sys2Proof/Laws/Codec.lean ====
section
/-! SUPPORT. The byte order of operands, and the decoder step by step (20_memory.md R48, 30_encoding.md R61, R66). -/

namespace Sys2Proof

@[simp] theorem half_hi_lo (w : Half) : half (hiByte w) (loByte w) = w := by
  apply BitVec.eq_of_getLsbD_eq
  intro i hi
  simp only [half, hiByte, loByte, BitVec.getLsbD_append, BitVec.getLsbD_extractLsb']
  by_cases h : i < 8
  · simp [h]
  · have h1 : i - 8 < 8 := by omega
    have h2 : 8 + (i - 8) = i := by omega
    simp [h, h1, h2]

@[simp] theorem loByte_half (b1 b0 : Byte) : loByte (half b1 b0) = b0 := by
  apply BitVec.eq_of_getLsbD_eq
  intro i hi
  simp only [loByte, half, BitVec.getLsbD_extractLsb', BitVec.getLsbD_append]
  simp [hi]

@[simp] theorem hiByte_half (b1 b0 : Byte) : hiByte (half b1 b0) = b1 := by
  apply BitVec.eq_of_getLsbD_eq
  intro i hi
  simp only [hiByte, half, BitVec.getLsbD_extractLsb', BitVec.getLsbD_append]
  simp [hi]

@[simp] theorem feed_nil (d : Dec) : d.feed [] = .incomplete d := rfl

theorem feed_cons (d : Dec) (b : Byte) (bs : List Byte) :
    d.feed (b :: bs) = match d.push b with
      | .more d' => d'.feed bs
      | .done i => .packet i bs := rfl

/-- Feeding a stream in two parts is feeding it at once (10 R12). -/
theorem feed_append (d : Dec) (as bs : List Byte) :
    d.feed (as ++ bs) = match d.feed as with
      | .packet i rest => .packet i (rest ++ bs)
      | .incomplete d' => d'.feed bs := by
  induction as generalizing d with
  | nil => rfl
  | cons a as ih =>
    rw [List.cons_append, feed_cons, feed_cons]
    cases d.push a with
    | more d' => exact ih d'
    | done i => rfl

/-- A counted payload is taken whole, whatever its bytes are (30 R61 (b)). -/
theorem feed_payloadN (op : Byte) (opb buf pay rest : List Byte) (n : Nat) (h : pay.length = n + 1) :
    (Dec.payloadN op opb (n + 1) buf).feed (pay ++ rest) = .packet (assemble op opb (buf ++ pay)) rest := by
  induction pay generalizing n buf with
  | nil => simp at h
  | cons b bs ih =>
    cases n with
    | zero =>
      have hb : bs = [] := by simpa using h
      subst hb
      rfl
    | succ n =>
      rw [List.cons_append, feed_cons]
      have := ih (buf ++ [b]) n (by simpa using h)
      simpa [Dec.push] using this

/-- A terminated payload is taken up to its terminator (30 R61 (c)). -/
theorem feed_payloadZ (op : Byte) (opb buf str rest : List Byte) (h : strOk str = true) :
    (Dec.payloadZ op opb buf).feed (str ++ 0x00#8 :: rest) = .packet (assemble op opb (buf ++ str)) rest := by
  induction str generalizing buf with
  | nil => simp [feed_cons, Dec.push]
  | cons c cs ih =>
    obtain ⟨hc, hcs⟩ : c ≠ 0x00#8 ∧ strOk cs = true := by simpa [strOk] using h
    have := ih (buf ++ [c]) hcs
    rw [List.cons_append, feed_cons]
    simpa [Dec.push, hc] using this

end Sys2Proof
end

