-- ==== Sys2Proof/Laws/State.lean ====
section
/-! SUPPORT. What each update of the state does to each field, true by rfl, so that no later proof unfolds a record update. -/

namespace Sys2Proof.Machine

/-! ### setFb -/

@[simp] theorem State.setFb_fb (s : State) (m : Memory) : (s.setFb m).fb = m := rfl
@[simp] theorem State.setFb_fbEra (s : State) (m : Memory) : (s.setFb m).fbEra = s.fbEra := rfl
@[simp] theorem State.setFb_cx (s : State) (m : Memory) : (s.setFb m).cx = s.cx := rfl
@[simp] theorem State.setFb_cp (s : State) (m : Memory) : (s.setFb m).cp = s.cp := rfl
@[simp] theorem State.setFb_cend (s : State) (m : Memory) : (s.setFb m).cend = s.cend := rfl
@[simp] theorem State.setFb_status (s : State) (m : Memory) : (s.setFb m).status = s.status := rfl
@[simp] theorem State.setFb_result (s : State) (m : Memory) : (s.setFb m).result = s.result := rfl
@[simp] theorem State.setFb_lncnt (s : State) (m : Memory) : (s.setFb m).lncnt = s.lncnt := rfl
@[simp] theorem State.setFb_inited (s : State) (m : Memory) : (s.setFb m).inited = s.inited := rfl
@[simp] theorem State.setFb_dc (s : State) (m : Memory) : (s.setFb m).dc = s.dc := rfl
@[simp] theorem State.setFb_rstn (s : State) (m : Memory) : (s.setFb m).rstn = s.rstn := rfl
@[simp] theorem State.setFb_sclk (s : State) (m : Memory) : (s.setFb m).sclk = s.sclk := rfl
@[simp] theorem State.setFb_sce (s : State) (m : Memory) : (s.setFb m).sce = s.sce := rfl
@[simp] theorem State.setFb_sdin (s : State) (m : Memory) : (s.setFb m).sdin = s.sdin := rfl
@[simp] theorem State.setFb_sdinDraw (s : State) (m : Memory) : (s.setFb m).sdinDraw = s.sdinDraw := rfl
@[simp] theorem State.setFb_dec (s : State) (m : Memory) : (s.setFb m).dec = s.dec := rfl
@[simp] theorem State.setFb_wire (s : State) (m : Memory) : (s.setFb m).wire = s.wire := rfl
@[simp] theorem State.setFb_pinTrace (s : State) (m : Memory) : (s.setFb m).pinTrace = s.pinTrace := rfl
@[simp] theorem State.setFb_busy (s : State) (m : Memory) : (s.setFb m).busy = s.busy := rfl
@[simp] theorem State.setFb_trdy (s : State) (m : Memory) : (s.setFb m).trdy = s.trdy := rfl
@[simp] theorem State.setFb_bus (s : State) (m : Memory) : (s.setFb m).bus = s.bus := rfl
@[simp] theorem State.setFb_input (s : State) (m : Memory) : (s.setFb m).input = s.input := rfl
@[simp] theorem State.setFb_params (s : State) (m : Memory) : (s.setFb m).params = s.params := rfl

/-! ### raise -/

@[simp] theorem State.raise_fb (st : Status) (s : State) : (State.raise st s).fb = s.fb := rfl
@[simp] theorem State.raise_fbEra (st : Status) (s : State) : (State.raise st s).fbEra = s.fbEra := rfl
@[simp] theorem State.raise_cx (st : Status) (s : State) : (State.raise st s).cx = s.cx := rfl
@[simp] theorem State.raise_cp (st : Status) (s : State) : (State.raise st s).cp = s.cp := rfl
@[simp] theorem State.raise_cend (st : Status) (s : State) : (State.raise st s).cend = s.cend := rfl
@[simp] theorem State.raise_status (st : Status) (s : State) : (State.raise st s).status = st.code := rfl
@[simp] theorem State.raise_result (st : Status) (s : State) : (State.raise st s).result = s.result := rfl
@[simp] theorem State.raise_lncnt (st : Status) (s : State) : (State.raise st s).lncnt = s.lncnt := rfl
@[simp] theorem State.raise_inited (st : Status) (s : State) : (State.raise st s).inited = s.inited := rfl
@[simp] theorem State.raise_dc (st : Status) (s : State) : (State.raise st s).dc = s.dc := rfl
@[simp] theorem State.raise_rstn (st : Status) (s : State) : (State.raise st s).rstn = s.rstn := rfl
@[simp] theorem State.raise_sclk (st : Status) (s : State) : (State.raise st s).sclk = s.sclk := rfl
@[simp] theorem State.raise_sce (st : Status) (s : State) : (State.raise st s).sce = s.sce := rfl
@[simp] theorem State.raise_sdin (st : Status) (s : State) : (State.raise st s).sdin = s.sdin := rfl
@[simp] theorem State.raise_sdinDraw (st : Status) (s : State) : (State.raise st s).sdinDraw = s.sdinDraw := rfl
@[simp] theorem State.raise_dec (st : Status) (s : State) : (State.raise st s).dec = s.dec := rfl
@[simp] theorem State.raise_wire (st : Status) (s : State) : (State.raise st s).wire = s.wire := rfl
@[simp] theorem State.raise_pinTrace (st : Status) (s : State) : (State.raise st s).pinTrace = s.pinTrace := rfl
@[simp] theorem State.raise_busy (st : Status) (s : State) : (State.raise st s).busy = s.busy := rfl
@[simp] theorem State.raise_trdy (st : Status) (s : State) : (State.raise st s).trdy = s.trdy := rfl
@[simp] theorem State.raise_bus (st : Status) (s : State) : (State.raise st s).bus = s.bus := rfl
@[simp] theorem State.raise_input (st : Status) (s : State) : (State.raise st s).input = s.input := rfl
@[simp] theorem State.raise_params (st : Status) (s : State) : (State.raise st s).params = s.params := rfl

/-! ### pass -/

@[simp] theorem State.pass_fb (s : State) : (s.pass).fb = s.fb := rfl
@[simp] theorem State.pass_fbEra (s : State) : (s.pass).fbEra = s.fbEra := rfl
@[simp] theorem State.pass_cx (s : State) : (s.pass).cx = s.cx := rfl
@[simp] theorem State.pass_cp (s : State) : (s.pass).cp = s.cp := rfl
@[simp] theorem State.pass_cend (s : State) : (s.pass).cend = s.cend := rfl
@[simp] theorem State.pass_status (s : State) : (s.pass).status = 0#8 := rfl
@[simp] theorem State.pass_result (s : State) : (s.pass).result = s.result := rfl
@[simp] theorem State.pass_lncnt (s : State) : (s.pass).lncnt = s.lncnt := rfl
@[simp] theorem State.pass_inited (s : State) : (s.pass).inited = s.inited := rfl
@[simp] theorem State.pass_dc (s : State) : (s.pass).dc = s.dc := rfl
@[simp] theorem State.pass_rstn (s : State) : (s.pass).rstn = s.rstn := rfl
@[simp] theorem State.pass_sclk (s : State) : (s.pass).sclk = s.sclk := rfl
@[simp] theorem State.pass_sce (s : State) : (s.pass).sce = s.sce := rfl
@[simp] theorem State.pass_sdin (s : State) : (s.pass).sdin = s.sdin := rfl
@[simp] theorem State.pass_sdinDraw (s : State) : (s.pass).sdinDraw = s.sdinDraw := rfl
@[simp] theorem State.pass_dec (s : State) : (s.pass).dec = s.dec := rfl
@[simp] theorem State.pass_wire (s : State) : (s.pass).wire = s.wire := rfl
@[simp] theorem State.pass_pinTrace (s : State) : (s.pass).pinTrace = s.pinTrace := rfl
@[simp] theorem State.pass_busy (s : State) : (s.pass).busy = s.busy := rfl
@[simp] theorem State.pass_trdy (s : State) : (s.pass).trdy = s.trdy := rfl
@[simp] theorem State.pass_bus (s : State) : (s.pass).bus = s.bus := rfl
@[simp] theorem State.pass_input (s : State) : (s.pass).input = s.input := rfl
@[simp] theorem State.pass_params (s : State) : (s.pass).params = s.params := rfl

/-! ### setLncnt -/

@[simp] theorem State.setLncnt_fb (s : State) (n : Nat) : (s.setLncnt n).fb = s.fb := rfl
@[simp] theorem State.setLncnt_fbEra (s : State) (n : Nat) : (s.setLncnt n).fbEra = s.fbEra := rfl
@[simp] theorem State.setLncnt_cx (s : State) (n : Nat) : (s.setLncnt n).cx = s.cx := rfl
@[simp] theorem State.setLncnt_cp (s : State) (n : Nat) : (s.setLncnt n).cp = s.cp := rfl
@[simp] theorem State.setLncnt_cend (s : State) (n : Nat) : (s.setLncnt n).cend = s.cend := rfl
@[simp] theorem State.setLncnt_status (s : State) (n : Nat) : (s.setLncnt n).status = s.status := rfl
@[simp] theorem State.setLncnt_result (s : State) (n : Nat) : (s.setLncnt n).result = s.result := rfl
@[simp] theorem State.setLncnt_lncnt (s : State) (n : Nat) : (s.setLncnt n).lncnt = BitVec.ofNat 16 n := rfl
@[simp] theorem State.setLncnt_inited (s : State) (n : Nat) : (s.setLncnt n).inited = s.inited := rfl
@[simp] theorem State.setLncnt_dc (s : State) (n : Nat) : (s.setLncnt n).dc = s.dc := rfl
@[simp] theorem State.setLncnt_rstn (s : State) (n : Nat) : (s.setLncnt n).rstn = s.rstn := rfl
@[simp] theorem State.setLncnt_sclk (s : State) (n : Nat) : (s.setLncnt n).sclk = s.sclk := rfl
@[simp] theorem State.setLncnt_sce (s : State) (n : Nat) : (s.setLncnt n).sce = s.sce := rfl
@[simp] theorem State.setLncnt_sdin (s : State) (n : Nat) : (s.setLncnt n).sdin = s.sdin := rfl
@[simp] theorem State.setLncnt_sdinDraw (s : State) (n : Nat) : (s.setLncnt n).sdinDraw = s.sdinDraw := rfl
@[simp] theorem State.setLncnt_dec (s : State) (n : Nat) : (s.setLncnt n).dec = s.dec := rfl
@[simp] theorem State.setLncnt_wire (s : State) (n : Nat) : (s.setLncnt n).wire = s.wire := rfl
@[simp] theorem State.setLncnt_pinTrace (s : State) (n : Nat) : (s.setLncnt n).pinTrace = s.pinTrace := rfl
@[simp] theorem State.setLncnt_busy (s : State) (n : Nat) : (s.setLncnt n).busy = s.busy := rfl
@[simp] theorem State.setLncnt_trdy (s : State) (n : Nat) : (s.setLncnt n).trdy = s.trdy := rfl
@[simp] theorem State.setLncnt_bus (s : State) (n : Nat) : (s.setLncnt n).bus = s.bus := rfl
@[simp] theorem State.setLncnt_input (s : State) (n : Nat) : (s.setLncnt n).input = s.input := rfl
@[simp] theorem State.setLncnt_params (s : State) (n : Nat) : (s.setLncnt n).params = s.params := rfl

/-! ### takeInk -/

@[simp] theorem State.takeInk_fb (s : State) (pen : Pen) : (s.takeInk pen).fb = pen.mem := rfl
@[simp] theorem State.takeInk_fbEra (s : State) (pen : Pen) : (s.takeInk pen).fbEra = s.fbEra := rfl
@[simp] theorem State.takeInk_cx (s : State) (pen : Pen) : (s.takeInk pen).cx = s.cx := rfl
@[simp] theorem State.takeInk_cp (s : State) (pen : Pen) : (s.takeInk pen).cp = s.cp := rfl
@[simp] theorem State.takeInk_cend (s : State) (pen : Pen) : (s.takeInk pen).cend = s.cend := rfl
@[simp] theorem State.takeInk_status (s : State) (pen : Pen) : (s.takeInk pen).status = pen.status.code := rfl
@[simp] theorem State.takeInk_result (s : State) (pen : Pen) : (s.takeInk pen).result = s.result := rfl
@[simp] theorem State.takeInk_lncnt (s : State) (pen : Pen) : (s.takeInk pen).lncnt = s.lncnt := rfl
@[simp] theorem State.takeInk_inited (s : State) (pen : Pen) : (s.takeInk pen).inited = s.inited := rfl
@[simp] theorem State.takeInk_dc (s : State) (pen : Pen) : (s.takeInk pen).dc = s.dc := rfl
@[simp] theorem State.takeInk_rstn (s : State) (pen : Pen) : (s.takeInk pen).rstn = s.rstn := rfl
@[simp] theorem State.takeInk_sclk (s : State) (pen : Pen) : (s.takeInk pen).sclk = s.sclk := rfl
@[simp] theorem State.takeInk_sce (s : State) (pen : Pen) : (s.takeInk pen).sce = s.sce := rfl
@[simp] theorem State.takeInk_sdin (s : State) (pen : Pen) : (s.takeInk pen).sdin = s.sdin := rfl
@[simp] theorem State.takeInk_sdinDraw (s : State) (pen : Pen) : (s.takeInk pen).sdinDraw = s.sdinDraw := rfl
@[simp] theorem State.takeInk_dec (s : State) (pen : Pen) : (s.takeInk pen).dec = s.dec := rfl
@[simp] theorem State.takeInk_wire (s : State) (pen : Pen) : (s.takeInk pen).wire = s.wire := rfl
@[simp] theorem State.takeInk_pinTrace (s : State) (pen : Pen) : (s.takeInk pen).pinTrace = s.pinTrace := rfl
@[simp] theorem State.takeInk_busy (s : State) (pen : Pen) : (s.takeInk pen).busy = s.busy := rfl
@[simp] theorem State.takeInk_trdy (s : State) (pen : Pen) : (s.takeInk pen).trdy = s.trdy := rfl
@[simp] theorem State.takeInk_bus (s : State) (pen : Pen) : (s.takeInk pen).bus = s.bus := rfl
@[simp] theorem State.takeInk_input (s : State) (pen : Pen) : (s.takeInk pen).input = s.input := rfl
@[simp] theorem State.takeInk_params (s : State) (pen : Pen) : (s.takeInk pen).params = s.params := rfl

/-! ### setCursor -/

@[simp] theorem State.setCursor_fb (s : State) (cur : Cursor) : (s.setCursor cur).fb = s.fb := rfl
@[simp] theorem State.setCursor_fbEra (s : State) (cur : Cursor) : (s.setCursor cur).fbEra = s.fbEra := rfl
@[simp] theorem State.setCursor_cx (s : State) (cur : Cursor) : (s.setCursor cur).cx = BitVec.ofNat 7 cur.x := rfl
@[simp] theorem State.setCursor_cp (s : State) (cur : Cursor) : (s.setCursor cur).cp = BitVec.ofNat 3 cur.page := rfl
@[simp] theorem State.setCursor_cend (s : State) (cur : Cursor) : (s.setCursor cur).cend = cur.past := rfl
@[simp] theorem State.setCursor_status (s : State) (cur : Cursor) : (s.setCursor cur).status = s.status := rfl
@[simp] theorem State.setCursor_result (s : State) (cur : Cursor) : (s.setCursor cur).result = s.result := rfl
@[simp] theorem State.setCursor_lncnt (s : State) (cur : Cursor) : (s.setCursor cur).lncnt = s.lncnt := rfl
@[simp] theorem State.setCursor_inited (s : State) (cur : Cursor) : (s.setCursor cur).inited = s.inited := rfl
@[simp] theorem State.setCursor_dc (s : State) (cur : Cursor) : (s.setCursor cur).dc = s.dc := rfl
@[simp] theorem State.setCursor_rstn (s : State) (cur : Cursor) : (s.setCursor cur).rstn = s.rstn := rfl
@[simp] theorem State.setCursor_sclk (s : State) (cur : Cursor) : (s.setCursor cur).sclk = s.sclk := rfl
@[simp] theorem State.setCursor_sce (s : State) (cur : Cursor) : (s.setCursor cur).sce = s.sce := rfl
@[simp] theorem State.setCursor_sdin (s : State) (cur : Cursor) : (s.setCursor cur).sdin = s.sdin := rfl
@[simp] theorem State.setCursor_sdinDraw (s : State) (cur : Cursor) : (s.setCursor cur).sdinDraw = s.sdinDraw := rfl
@[simp] theorem State.setCursor_dec (s : State) (cur : Cursor) : (s.setCursor cur).dec = s.dec := rfl
@[simp] theorem State.setCursor_wire (s : State) (cur : Cursor) : (s.setCursor cur).wire = s.wire := rfl
@[simp] theorem State.setCursor_pinTrace (s : State) (cur : Cursor) : (s.setCursor cur).pinTrace = s.pinTrace := rfl
@[simp] theorem State.setCursor_busy (s : State) (cur : Cursor) : (s.setCursor cur).busy = s.busy := rfl
@[simp] theorem State.setCursor_trdy (s : State) (cur : Cursor) : (s.setCursor cur).trdy = s.trdy := rfl
@[simp] theorem State.setCursor_bus (s : State) (cur : Cursor) : (s.setCursor cur).bus = s.bus := rfl
@[simp] theorem State.setCursor_input (s : State) (cur : Cursor) : (s.setCursor cur).input = s.input := rfl
@[simp] theorem State.setCursor_params (s : State) (cur : Cursor) : (s.setCursor cur).params = s.params := rfl

/-! ### setPins -/

@[simp] theorem State.setPins_fb (s : State) (p : Pins) : (s.setPins p).fb = s.fb := rfl
@[simp] theorem State.setPins_fbEra (s : State) (p : Pins) : (s.setPins p).fbEra = s.fbEra := rfl
@[simp] theorem State.setPins_cx (s : State) (p : Pins) : (s.setPins p).cx = s.cx := rfl
@[simp] theorem State.setPins_cp (s : State) (p : Pins) : (s.setPins p).cp = s.cp := rfl
@[simp] theorem State.setPins_cend (s : State) (p : Pins) : (s.setPins p).cend = s.cend := rfl
@[simp] theorem State.setPins_status (s : State) (p : Pins) : (s.setPins p).status = s.status := rfl
@[simp] theorem State.setPins_result (s : State) (p : Pins) : (s.setPins p).result = s.result := rfl
@[simp] theorem State.setPins_lncnt (s : State) (p : Pins) : (s.setPins p).lncnt = s.lncnt := rfl
@[simp] theorem State.setPins_inited (s : State) (p : Pins) : (s.setPins p).inited = s.inited := rfl
@[simp] theorem State.setPins_dc (s : State) (p : Pins) : (s.setPins p).dc = p.dc := rfl
@[simp] theorem State.setPins_rstn (s : State) (p : Pins) : (s.setPins p).rstn = s.rstn := rfl
@[simp] theorem State.setPins_sclk (s : State) (p : Pins) : (s.setPins p).sclk = p.sclk := rfl
@[simp] theorem State.setPins_sce (s : State) (p : Pins) : (s.setPins p).sce = p.sce := rfl
@[simp] theorem State.setPins_sdin (s : State) (p : Pins) : (s.setPins p).sdin = p.sdin := rfl
@[simp] theorem State.setPins_sdinDraw (s : State) (p : Pins) : (s.setPins p).sdinDraw = s.sdinDraw := rfl
@[simp] theorem State.setPins_dec (s : State) (p : Pins) : (s.setPins p).dec = s.dec := rfl
@[simp] theorem State.setPins_wire (s : State) (p : Pins) : (s.setPins p).wire = s.wire := rfl
@[simp] theorem State.setPins_pinTrace (s : State) (p : Pins) : (s.setPins p).pinTrace = s.pinTrace := rfl
@[simp] theorem State.setPins_busy (s : State) (p : Pins) : (s.setPins p).busy = s.busy := rfl
@[simp] theorem State.setPins_trdy (s : State) (p : Pins) : (s.setPins p).trdy = s.trdy := rfl
@[simp] theorem State.setPins_bus (s : State) (p : Pins) : (s.setPins p).bus = s.bus := rfl
@[simp] theorem State.setPins_input (s : State) (p : Pins) : (s.setPins p).input = s.input := rfl
@[simp] theorem State.setPins_params (s : State) (p : Pins) : (s.setPins p).params = s.params := rfl

/-! ### releaseSce -/

@[simp] theorem State.releaseSce_fb (s : State) : (s.releaseSce).fb = s.fb := rfl
@[simp] theorem State.releaseSce_fbEra (s : State) : (s.releaseSce).fbEra = s.fbEra := rfl
@[simp] theorem State.releaseSce_cx (s : State) : (s.releaseSce).cx = s.cx := rfl
@[simp] theorem State.releaseSce_cp (s : State) : (s.releaseSce).cp = s.cp := rfl
@[simp] theorem State.releaseSce_cend (s : State) : (s.releaseSce).cend = s.cend := rfl
@[simp] theorem State.releaseSce_status (s : State) : (s.releaseSce).status = s.status := rfl
@[simp] theorem State.releaseSce_result (s : State) : (s.releaseSce).result = s.result := rfl
@[simp] theorem State.releaseSce_lncnt (s : State) : (s.releaseSce).lncnt = s.lncnt := rfl
@[simp] theorem State.releaseSce_inited (s : State) : (s.releaseSce).inited = s.inited := rfl
@[simp] theorem State.releaseSce_dc (s : State) : (s.releaseSce).dc = s.dc := rfl
@[simp] theorem State.releaseSce_rstn (s : State) : (s.releaseSce).rstn = s.rstn := rfl
@[simp] theorem State.releaseSce_sclk (s : State) : (s.releaseSce).sclk = s.sclk := rfl
@[simp] theorem State.releaseSce_sce (s : State) : (s.releaseSce).sce = !s.params.pinFormat.sceActive := rfl
@[simp] theorem State.releaseSce_sdin (s : State) : (s.releaseSce).sdin = s.sdin := rfl
@[simp] theorem State.releaseSce_sdinDraw (s : State) : (s.releaseSce).sdinDraw = s.sdinDraw := rfl
@[simp] theorem State.releaseSce_dec (s : State) : (s.releaseSce).dec = s.dec := rfl
@[simp] theorem State.releaseSce_wire (s : State) : (s.releaseSce).wire = s.wire := rfl
@[simp] theorem State.releaseSce_pinTrace (s : State) : (s.releaseSce).pinTrace = s.pinTrace := rfl
@[simp] theorem State.releaseSce_busy (s : State) : (s.releaseSce).busy = s.busy := rfl
@[simp] theorem State.releaseSce_trdy (s : State) : (s.releaseSce).trdy = s.trdy := rfl
@[simp] theorem State.releaseSce_bus (s : State) : (s.releaseSce).bus = s.bus := rfl
@[simp] theorem State.releaseSce_input (s : State) : (s.releaseSce).input = s.input := rfl
@[simp] theorem State.releaseSce_params (s : State) : (s.releaseSce).params = s.params := rfl

/-! ### sendByte -/

@[simp] theorem State.sendByte_fb (s : State) (dc : Bool) (v : Byte) : (s.sendByte dc v).fb = s.fb := rfl
@[simp] theorem State.sendByte_fbEra (s : State) (dc : Bool) (v : Byte) : (s.sendByte dc v).fbEra = s.fbEra := rfl
@[simp] theorem State.sendByte_cx (s : State) (dc : Bool) (v : Byte) : (s.sendByte dc v).cx = s.cx := rfl
@[simp] theorem State.sendByte_cp (s : State) (dc : Bool) (v : Byte) : (s.sendByte dc v).cp = s.cp := rfl
@[simp] theorem State.sendByte_cend (s : State) (dc : Bool) (v : Byte) : (s.sendByte dc v).cend = s.cend := rfl
@[simp] theorem State.sendByte_status (s : State) (dc : Bool) (v : Byte) : (s.sendByte dc v).status = s.status := rfl
@[simp] theorem State.sendByte_result (s : State) (dc : Bool) (v : Byte) : (s.sendByte dc v).result = s.result := rfl
@[simp] theorem State.sendByte_lncnt (s : State) (dc : Bool) (v : Byte) : (s.sendByte dc v).lncnt = s.lncnt := rfl
@[simp] theorem State.sendByte_inited (s : State) (dc : Bool) (v : Byte) : (s.sendByte dc v).inited = s.inited := rfl
@[simp] theorem State.sendByte_dc (s : State) (dc : Bool) (v : Byte) : (s.sendByte dc v).dc = dc := rfl
@[simp] theorem State.sendByte_rstn (s : State) (dc : Bool) (v : Byte) : (s.sendByte dc v).rstn = s.rstn := rfl
@[simp] theorem State.sendByte_sclk (s : State) (dc : Bool) (v : Byte) :
    (s.sendByte dc v).sclk = s.params.pinFormat.clockIdle := rfl
@[simp] theorem State.sendByte_sce (s : State) (dc : Bool) (v : Byte) : (s.sendByte dc v).sce =
    if s.params.pinFormat.scePerByte then !s.params.pinFormat.sceActive else s.params.pinFormat.sceActive := rfl
@[simp] theorem State.sendByte_sdin (s : State) (dc : Bool) (v : Byte) :
    (s.sendByte dc v).sdin = Config.sdinIdle s.sdinDraw := rfl
@[simp] theorem State.sendByte_sdinDraw (s : State) (dc : Bool) (v : Byte) :
    (s.sendByte dc v).sdinDraw = s.sdinDraw + 1 := rfl
@[simp] theorem State.sendByte_dec (s : State) (dc : Bool) (v : Byte) : (s.sendByte dc v).dec = s.dec := rfl
@[simp] theorem State.sendByte_wire (s : State) (dc : Bool) (v : Byte) :
    (s.sendByte dc v).wire = s.wire ++ [.byte dc v] := rfl
@[simp] theorem State.sendByte_pinTrace (s : State) (dc : Bool) (v : Byte) : (s.sendByte dc v).pinTrace =
    s.pinTrace ++ [spiFrame s.params.pinFormat dc v] := rfl
@[simp] theorem State.sendByte_busy (s : State) (dc : Bool) (v : Byte) : (s.sendByte dc v).busy = s.busy := rfl
@[simp] theorem State.sendByte_trdy (s : State) (dc : Bool) (v : Byte) : (s.sendByte dc v).trdy = s.trdy := rfl
@[simp] theorem State.sendByte_bus (s : State) (dc : Bool) (v : Byte) : (s.sendByte dc v).bus = s.bus.map (· - 1) := rfl
@[simp] theorem State.sendByte_input (s : State) (dc : Bool) (v : Byte) : (s.sendByte dc v).input = s.input := rfl
@[simp] theorem State.sendByte_params (s : State) (dc : Bool) (v : Byte) : (s.sendByte dc v).params = s.params := rfl

/-! ### resetPulse -/

@[simp] theorem State.resetPulse_fb (s : State) : (s.resetPulse).fb = s.fb := rfl
@[simp] theorem State.resetPulse_fbEra (s : State) : (s.resetPulse).fbEra = s.fbEra := rfl
@[simp] theorem State.resetPulse_cx (s : State) : (s.resetPulse).cx = s.cx := rfl
@[simp] theorem State.resetPulse_cp (s : State) : (s.resetPulse).cp = s.cp := rfl
@[simp] theorem State.resetPulse_cend (s : State) : (s.resetPulse).cend = s.cend := rfl
@[simp] theorem State.resetPulse_status (s : State) : (s.resetPulse).status = s.status := rfl
@[simp] theorem State.resetPulse_result (s : State) : (s.resetPulse).result = s.result := rfl
@[simp] theorem State.resetPulse_lncnt (s : State) : (s.resetPulse).lncnt = s.lncnt := rfl
@[simp] theorem State.resetPulse_inited (s : State) : (s.resetPulse).inited = s.inited := rfl
@[simp] theorem State.resetPulse_dc (s : State) : (s.resetPulse).dc = s.dc := rfl
@[simp] theorem State.resetPulse_rstn (s : State) : (s.resetPulse).rstn = true := rfl
@[simp] theorem State.resetPulse_sclk (s : State) : (s.resetPulse).sclk = s.sclk := rfl
@[simp] theorem State.resetPulse_sce (s : State) : (s.resetPulse).sce = s.sce := rfl
@[simp] theorem State.resetPulse_sdin (s : State) : (s.resetPulse).sdin = s.sdin := rfl
@[simp] theorem State.resetPulse_sdinDraw (s : State) : (s.resetPulse).sdinDraw = s.sdinDraw := rfl
@[simp] theorem State.resetPulse_dec (s : State) : (s.resetPulse).dec = s.dec := rfl
@[simp] theorem State.resetPulse_wire (s : State) : (s.resetPulse).wire = s.wire ++ [.rstAssert, .rstRelease] := rfl
@[simp] theorem State.resetPulse_pinTrace (s : State) : (s.resetPulse).pinTrace = s.pinTrace := rfl
@[simp] theorem State.resetPulse_busy (s : State) : (s.resetPulse).busy = s.busy := rfl
@[simp] theorem State.resetPulse_trdy (s : State) : (s.resetPulse).trdy = s.trdy := rfl
@[simp] theorem State.resetPulse_bus (s : State) : (s.resetPulse).bus = s.bus := rfl
@[simp] theorem State.resetPulse_input (s : State) : (s.resetPulse).input = s.input := rfl
@[simp] theorem State.resetPulse_params (s : State) : (s.resetPulse).params = s.params := rfl

/-! ### hold -/

@[simp] theorem State.hold_fb (s : State) (f : Finish) (dc : Bool) (v : Byte) (ops : List MicroOp) :
    (s.hold f dc v ops).fb = s.fb := rfl
@[simp] theorem State.hold_fbEra (s : State) (f : Finish) (dc : Bool) (v : Byte) (ops : List MicroOp) :
    (s.hold f dc v ops).fbEra = s.fbEra := rfl
@[simp] theorem State.hold_cx (s : State) (f : Finish) (dc : Bool) (v : Byte) (ops : List MicroOp) :
    (s.hold f dc v ops).cx = s.cx := rfl
@[simp] theorem State.hold_cp (s : State) (f : Finish) (dc : Bool) (v : Byte) (ops : List MicroOp) :
    (s.hold f dc v ops).cp = s.cp := rfl
@[simp] theorem State.hold_cend (s : State) (f : Finish) (dc : Bool) (v : Byte) (ops : List MicroOp) :
    (s.hold f dc v ops).cend = s.cend := rfl
@[simp] theorem State.hold_status (s : State) (f : Finish) (dc : Bool) (v : Byte) (ops : List MicroOp) :
    (s.hold f dc v ops).status = s.status := rfl
@[simp] theorem State.hold_result (s : State) (f : Finish) (dc : Bool) (v : Byte) (ops : List MicroOp) :
    (s.hold f dc v ops).result = s.result := rfl
@[simp] theorem State.hold_lncnt (s : State) (f : Finish) (dc : Bool) (v : Byte) (ops : List MicroOp) :
    (s.hold f dc v ops).lncnt = s.lncnt := rfl
@[simp] theorem State.hold_inited (s : State) (f : Finish) (dc : Bool) (v : Byte) (ops : List MicroOp) :
    (s.hold f dc v ops).inited = s.inited := rfl
@[simp] theorem State.hold_dc (s : State) (f : Finish) (dc : Bool) (v : Byte) (ops : List MicroOp) :
    (s.hold f dc v ops).dc = dc := rfl
@[simp] theorem State.hold_rstn (s : State) (f : Finish) (dc : Bool) (v : Byte) (ops : List MicroOp) :
    (s.hold f dc v ops).rstn = s.rstn := rfl
@[simp] theorem State.hold_sclk (s : State) (f : Finish) (dc : Bool) (v : Byte) (ops : List MicroOp) : (s.hold f dc v ops).sclk =
    (pinStage s.params.pinFormat dc v (Config.stallPoint s.sdinDraw % 17)).sclk := rfl
@[simp] theorem State.hold_sce (s : State) (f : Finish) (dc : Bool) (v : Byte) (ops : List MicroOp) : (s.hold f dc v ops).sce =
    s.params.pinFormat.sceActive := rfl
@[simp] theorem State.hold_sdin (s : State) (f : Finish) (dc : Bool) (v : Byte) (ops : List MicroOp) : (s.hold f dc v ops).sdin =
    (pinStage s.params.pinFormat dc v (Config.stallPoint s.sdinDraw % 17)).sdin := rfl
@[simp] theorem State.hold_sdinDraw (s : State) (f : Finish) (dc : Bool) (v : Byte) (ops : List MicroOp) :
    (s.hold f dc v ops).sdinDraw = s.sdinDraw := rfl
@[simp] theorem State.hold_dec (s : State) (f : Finish) (dc : Bool) (v : Byte) (ops : List MicroOp) :
    (s.hold f dc v ops).dec = s.dec := rfl
@[simp] theorem State.hold_wire (s : State) (f : Finish) (dc : Bool) (v : Byte) (ops : List MicroOp) :
    (s.hold f dc v ops).wire = s.wire := rfl
@[simp] theorem State.hold_pinTrace (s : State) (f : Finish) (dc : Bool) (v : Byte) (ops : List MicroOp) :
    (s.hold f dc v ops).pinTrace = s.pinTrace := rfl
@[simp] theorem State.hold_busy (s : State) (f : Finish) (dc : Bool) (v : Byte) (ops : List MicroOp) :
    (s.hold f dc v ops).busy = some ⟨.send dc v :: ops, f⟩ := rfl
@[simp] theorem State.hold_trdy (s : State) (f : Finish) (dc : Bool) (v : Byte) (ops : List MicroOp) :
    (s.hold f dc v ops).trdy = s.trdy := rfl
@[simp] theorem State.hold_bus (s : State) (f : Finish) (dc : Bool) (v : Byte) (ops : List MicroOp) :
    (s.hold f dc v ops).bus = s.bus := rfl
@[simp] theorem State.hold_input (s : State) (f : Finish) (dc : Bool) (v : Byte) (ops : List MicroOp) :
    (s.hold f dc v ops).input = s.input := rfl
@[simp] theorem State.hold_params (s : State) (f : Finish) (dc : Bool) (v : Byte) (ops : List MicroOp) :
    (s.hold f dc v ops).params = s.params := rfl

/-! ### engineReset -/

@[simp] theorem State.engineReset_fb (s : State) : (s.engineReset).fb = [] := rfl
@[simp] theorem State.engineReset_fbEra (s : State) : (s.engineReset).fbEra = s.fbEra + 1 := rfl
@[simp] theorem State.engineReset_cx (s : State) : (s.engineReset).cx = 0#7 := rfl
@[simp] theorem State.engineReset_cp (s : State) : (s.engineReset).cp = 0#3 := rfl
@[simp] theorem State.engineReset_cend (s : State) : (s.engineReset).cend = false := rfl
@[simp] theorem State.engineReset_status (s : State) : (s.engineReset).status = 0#8 := rfl
@[simp] theorem State.engineReset_result (s : State) : (s.engineReset).result = 0#8 := rfl
@[simp] theorem State.engineReset_lncnt (s : State) : (s.engineReset).lncnt = 0#16 := rfl
@[simp] theorem State.engineReset_inited (s : State) : (s.engineReset).inited = false := rfl
@[simp] theorem State.engineReset_dc (s : State) : (s.engineReset).dc = false := rfl
@[simp] theorem State.engineReset_rstn (s : State) : (s.engineReset).rstn = true := rfl
@[simp] theorem State.engineReset_sclk (s : State) : (s.engineReset).sclk = s.params.pinFormat.clockIdle := rfl
@[simp] theorem State.engineReset_sce (s : State) : (s.engineReset).sce = !s.params.pinFormat.sceActive := rfl
@[simp] theorem State.engineReset_sdin (s : State) : (s.engineReset).sdin = Config.sdinIdle s.sdinDraw := rfl
@[simp] theorem State.engineReset_sdinDraw (s : State) : (s.engineReset).sdinDraw = s.sdinDraw + 1 := rfl
@[simp] theorem State.engineReset_dec (s : State) : (s.engineReset).dec = .idle := rfl
@[simp] theorem State.engineReset_wire (s : State) : (s.engineReset).wire = s.wire := rfl
@[simp] theorem State.engineReset_pinTrace (s : State) : (s.engineReset).pinTrace = s.pinTrace := rfl
@[simp] theorem State.engineReset_busy (s : State) : (s.engineReset).busy = none := rfl
@[simp] theorem State.engineReset_trdy (s : State) : (s.engineReset).trdy = s.trdy := rfl
@[simp] theorem State.engineReset_bus (s : State) : (s.engineReset).bus = s.bus := rfl
@[simp] theorem State.engineReset_input (s : State) : (s.engineReset).input = s.input := rfl
@[simp] theorem State.engineReset_params (s : State) : (s.engineReset).params = s.params := rfl

end Sys2Proof.Machine
end

