-- ==== Sys2Proof/Laws/Memory.lean ====
section
/-! SUPPORT. The framebuffer's memory: reading after writing, and that every operation keeps the canonical form
(20_memory.md R45, R46, R49 (b)). -/

namespace Sys2Proof.Machine

/-! ### Reading after writing -/

@[simp] theorem Memory.lookup_nil (a : Nat) : Memory.lookup [] a = none := rfl

theorem Memory.lookup_insert_same (m : Memory) (a : Nat) (v : Byte) : Memory.lookup (Memory.insert m a v) a = some v := by
  induction m with
  | nil => simp [Memory.insert, Memory.lookup]
  | cons c m ih =>
    obtain ⟨b, w⟩ := c
    unfold Memory.insert
    split
    · simp [Memory.lookup]
    · split
      · simp [Memory.lookup]
      · rename_i h
        simp [Memory.lookup, h, ih]

theorem Memory.lookup_insert_other (m : Memory) {a b : Nat} (v : Byte) (h : b ≠ a) :
    Memory.lookup (Memory.insert m a v) b = Memory.lookup m b := by
  induction m with
  | nil => simp [Memory.insert, Memory.lookup, h]
  | cons c m ih =>
    obtain ⟨d, w⟩ := c
    unfold Memory.insert
    split
    · simp [Memory.lookup, h]
    · split
      · rename_i h'
        subst h'
        simp [Memory.lookup, h]
      · simp only [Memory.lookup, ih]

/-- The one law of FbWrite: the byte written reads back, every other byte reads as before, and there is no byte outside. -/
theorem Memory.read_write (era : Nat) (m : Memory) (a b : Nat) (v : Byte) :
    Memory.read era (Memory.write m a v) b = if b = a ∧ a < 504 then v else Memory.read era m b := by
  unfold Memory.read Memory.write
  by_cases ha : a < 504
  · by_cases hb : b = a
    · subst hb
      simp [ha, Memory.lookup_insert_same]
    · simp [ha, hb, Memory.lookup_insert_other _ _ hb]
  · simp [ha]

/-- The one law of a run: index `b` holds byte `b - off` of the run where the run covers it, and its old byte elsewhere. -/
theorem Memory.read_writeRun (era : Nat) (bs : List Byte) (m : Memory) (off b : Nat) :
    Memory.read era (Memory.writeRun m off bs) b =
      if off ≤ b ∧ b < off + bs.length ∧ b < 504 then bs.getD (b - off) 0#8 else Memory.read era m b := by
  induction bs generalizing off with
  | nil => simp [Memory.writeRun]; omega
  | cons v vs ih =>
    rw [Memory.writeRun, Memory.read_write, ih (off + 1)]
    by_cases hb : b = off
    · subst hb
      by_cases h : b < 504 <;> simp [h]
    · simp only [hb, false_and, if_false, List.length_cons]
      by_cases h : off ≤ b ∧ b < off + (vs.length + 1) ∧ b < 504
      · have h1 : b - off = (b - (off + 1)) + 1 := by omega
        rw [if_pos h, if_pos (by omega), h1]
        simp
      · rw [if_neg h, if_neg (by omega)]

@[simp] theorem zeros_length (n : Nat) : (zeros n).length = n := by simp [zeros]

@[simp] theorem zeros_getD (n i : Nat) : (zeros n).getD i 0#8 = 0#8 := by simp [zeros, List.getElem?_replicate]; split <;> rfl

/-! ### The canonical form -/

theorem Memory.wf_nil : Memory.wf [] := by simp [Memory.wf]

theorem Memory.mem_insert {m : Memory} {a : Nat} {v : Byte} {c : Host.Cell} (h : c ∈ Memory.insert m a v) :
    c = (a, v) ∨ c ∈ m := by
  induction m with
  | nil => simpa [Memory.insert] using h
  | cons d m ih =>
    obtain ⟨b, w⟩ := d
    unfold Memory.insert at h
    split at h
    · simpa using h
    · split at h
      · rcases List.mem_cons.mp h with h | h
        · exact .inl h
        · exact .inr (List.mem_cons_of_mem _ h)
      · rcases List.mem_cons.mp h with h | h
        · exact .inr (by simp [h])
        · exact (ih h).imp id (List.mem_cons_of_mem _)

theorem Memory.insert_wf {m : Memory} {a : Nat} (v : Byte) (h : Memory.wf m) (ha : a < 504) :
    Memory.wf (Memory.insert m a v) := by
  refine ⟨?_, fun c hc => ?_⟩
  · have hp := h.1
    clear h
    induction m with
    | nil => simp [Memory.insert]
    | cons d m ih =>
      obtain ⟨b, w⟩ := d
      obtain ⟨h1, h2⟩ := List.pairwise_cons.mp hp
      unfold Memory.insert
      split
      · rename_i hlt
        refine List.pairwise_cons.mpr ⟨fun c hc => ?_, hp⟩
        rcases List.mem_cons.mp hc with h | h
        · simpa [h] using hlt
        · exact Nat.lt_trans hlt (h1 c h)
      · split
        · rename_i heq
          subst heq
          exact List.pairwise_cons.mpr ⟨h1, h2⟩
        · refine List.pairwise_cons.mpr ⟨fun c hc => ?_, ih h2⟩
          rcases Memory.mem_insert hc with h | h
          · subst h
            show b < a
            omega
          · exact h1 c h
  · rcases Memory.mem_insert hc with h' | h'
    · simpa [h'] using ha
    · exact h.2 c h'

theorem Memory.write_wf {m : Memory} (a : Nat) (v : Byte) (h : Memory.wf m) : Memory.wf (Memory.write m a v) := by
  unfold Memory.write
  split
  · exact Memory.insert_wf v h (by simpa using ‹a < Config.fbSize›)
  · exact h

theorem Memory.writeRun_wf {m : Memory} (off : Nat) (bs : List Byte) (h : Memory.wf m) :
    Memory.wf (Memory.writeRun m off bs) := by
  induction bs generalizing off with
  | nil => exact h
  | cons v vs ih => exact Memory.write_wf _ _ (ih (off + 1))

theorem Memory.setPixel_wf {m : Memory} (era x y : Nat) (h : Memory.wf m) : Memory.wf (Memory.setPixel era m x y) :=
  Memory.write_wf _ _ h

theorem Memory.clearPixel_wf {m : Memory} (era x y : Nat) (h : Memory.wf m) : Memory.wf (Memory.clearPixel era m x y) :=
  Memory.write_wf _ _ h

/-! ### The addressing functions (20 R41, R42, R44) -/

theorem pixIndex_lt {x y : Nat} (hx : x ≤ 83) (hy : y ≤ 47) : pixIndex x y < 504 := by
  simp only [pixIndex, Config.cols]
  omega

theorem pixIndex_inj {x y x' y' : Nat} (hx : x ≤ 83) (hx' : x' ≤ 83) :
    pixIndex x y = pixIndex x' y' ↔ x = x' ∧ y / 8 = y' / 8 := by
  simp only [pixIndex, Config.cols]
  omega

theorem runOff_lt {x page : Nat} (hx : x ≤ 83) (hp : page ≤ 5) : runOff x page < 504 := by
  simp only [runOff, Config.cols]
  omega

end Sys2Proof.Machine
end

