-- ==== Sys2Proof/Laws/Operands.lean ====
section
/-! SUPPORT. The range checks, the bits of the mask engine and the byte runs, each said once (20_memory.md R42, R44, R45). -/

namespace Sys2Proof.Machine

/-! ### Ranges -/

@[simp] theorem xOk_iff (x : Byte) : xOk x = true ↔ x.toNat ≤ 83 := by simp [xOk]
@[simp] theorem yOk_iff (y : Byte) : yOk y = true ↔ y.toNat ≤ 47 := by simp [yOk]
@[simp] theorem pageOk_iff (p : Byte) : pageOk p = true ↔ p.toNat ≤ 5 := by simp [pageOk]
@[simp] theorem runFits_iff (off n : Nat) : runFits off n = true ↔ off + n ≤ 504 := by simp [runFits]

/-! ### One bit of a byte (20 R42) -/

theorem pixMask_getLsbD (y i : Nat) : (pixMask y).getLsbD i = decide (i = y % 8) := by
  have h : y % 8 < 8 := Nat.mod_lt _ (by omega)
  by_cases hi : i = y % 8
  · subst hi
    simp [pixMask, h]
  · by_cases h8 : i < 8
    · simp [pixMask, hi, h8]
      omega
    · simp [pixMask, hi, h8]

theorem setBit_getLsbD (v : Byte) (y i : Nat) : (setBit v y).getLsbD i = (v.getLsbD i || decide (i = y % 8)) := by
  rw [setBit, BitVec.getLsbD_or, pixMask_getLsbD]

theorem clearBit_getLsbD (v : Byte) (y i : Nat) : (clearBit v y).getLsbD i = (v.getLsbD i && !decide (i = y % 8)) := by
  rw [clearBit, BitVec.getLsbD_and, BitVec.getLsbD_xor, pixMask_getLsbD]
  by_cases h : i < 8
  · have h1 : (0xFF#8).getLsbD i = true := by
      have : i = 0 ∨ i = 1 ∨ i = 2 ∨ i = 3 ∨ i = 4 ∨ i = 5 ∨ i = 6 ∨ i = 7 := by omega
      rcases this with h | h | h | h | h | h | h | h <;> subst h <;> rfl
    simp [h1]
  · simp [BitVec.getLsbD_of_ge v i (by omega)]

/-- Testing a pixel is reading its bit (20 R41, R42). -/
theorem Memory.pixel_eq (era : Nat) (m : Memory) (x y : Nat) :
    Memory.pixel era m x y = (Memory.read era m (pixIndex x y)).getLsbD (y % 8) := by
  have h8 : y % 8 < 8 := Nat.mod_lt _ (by omega)
  unfold Memory.pixel
  generalize Memory.read era m (pixIndex x y) = v
  cases hb : v.getLsbD (y % 8) with
  | true =>
    have : v &&& pixMask y ≠ 0#8 := by
      intro h
      have h' := congrArg (fun w : Byte => w.getLsbD (y % 8)) h
      simp only [BitVec.getLsbD_and, pixMask_getLsbD, hb, decide_true, Bool.and_self, BitVec.getLsbD_zero] at h'
      cases h'
    simpa using this
  | false =>
    have : v &&& pixMask y = 0#8 := by
      apply BitVec.eq_of_getLsbD_eq
      intro i _
      rw [BitVec.getLsbD_and, pixMask_getLsbD, BitVec.getLsbD_zero]
      by_cases hi : i = y % 8
      · rw [hi, hb]
        rfl
      · simp [hi]
    simp [this]

/-! ### Pixels after a pixel write (40 R103, R104) -/

theorem Memory.read_setPixel (era : Nat) (m : Memory) {x y : Nat} (hx : x ≤ 83) (hy : y ≤ 47) (a : Nat) :
    Memory.read era (Memory.setPixel era m x y) a =
      if a = pixIndex x y then setBit (Memory.read era m a) y else Memory.read era m a := by
  rw [Memory.setPixel, Memory.read_write]
  by_cases h : a = pixIndex x y
  · subst h
    simp [pixIndex_lt hx hy]
  · simp [h]

theorem Memory.read_clearPixel (era : Nat) (m : Memory) {x y : Nat} (hx : x ≤ 83) (hy : y ≤ 47) (a : Nat) :
    Memory.read era (Memory.clearPixel era m x y) a =
      if a = pixIndex x y then clearBit (Memory.read era m a) y else Memory.read era m a := by
  rw [Memory.clearPixel, Memory.read_write]
  by_cases h : a = pixIndex x y
  · subst h
    simp [pixIndex_lt hx hy]
  · simp [h]

/-- Setting a pixel sets that pixel and no other. -/
theorem Memory.pixel_setPixel (era : Nat) (m : Memory) {x y x' y' : Nat} (hx : x ≤ 83) (hy : y ≤ 47) (hx' : x' ≤ 83) :
    Memory.pixel era (Memory.setPixel era m x y) x' y' = (Memory.pixel era m x' y' || decide (x' = x ∧ y' = y)) := by
  rw [Memory.pixel_eq, Memory.pixel_eq, Memory.read_setPixel era m hx hy]
  by_cases h : pixIndex x' y' = pixIndex x y
  · obtain ⟨h1, h2⟩ := (pixIndex_inj hx' hx).mp h
    rw [if_pos h, setBit_getLsbD]
    congr 1
    simp only [h1, true_and, decide_eq_decide]
    omega
  · rw [if_neg h]
    have : ¬(x' = x ∧ y' = y) := fun c => h (by rw [c.1, c.2])
    simp [this]

/-- Clearing a pixel clears that pixel and no other. -/
theorem Memory.pixel_clearPixel (era : Nat) (m : Memory) {x y x' y' : Nat} (hx : x ≤ 83) (hy : y ≤ 47) (hx' : x' ≤ 83) :
    Memory.pixel era (Memory.clearPixel era m x y) x' y' = (Memory.pixel era m x' y' && !decide (x' = x ∧ y' = y)) := by
  rw [Memory.pixel_eq, Memory.pixel_eq, Memory.read_clearPixel era m hx hy]
  by_cases h : pixIndex x' y' = pixIndex x y
  · obtain ⟨h1, h2⟩ := (pixIndex_inj hx' hx).mp h
    rw [if_pos h, clearBit_getLsbD]
    congr 2
    simp only [h1, true_and, decide_eq_decide]
    omega
  · rw [if_neg h]
    have : ¬(x' = x ∧ y' = y) := fun c => h (by rw [c.1, c.2])
    simp [this]

/-! ### Byte runs (40 R105, R106) -/

/-- Everything a byte run can do: refuse and change STATUS, or fit and write. -/
theorem storeRun_cases (x page : Byte) (len : Nat) (bytes : List Byte) (s : State) :
    ((83 < x.toNat ∨ 5 < page.toNat ∨ 504 < runOff x.toNat page.toNat + len) ∧ storeRun x page len bytes s = s.raise .oob) ∨
    (x.toNat ≤ 83 ∧ page.toNat ≤ 5 ∧ runOff x.toNat page.toNat + len ≤ 504 ∧
      storeRun x page len bytes s = (s.setFb (Memory.writeRun s.fb (runOff x.toNat page.toNat) bytes)).pass) := by
  unfold storeRun
  by_cases h1 : x.toNat ≤ 83 <;> by_cases h2 : page.toNat ≤ 5 <;>
    by_cases h3 : runOff x.toNat page.toNat + len ≤ 504 <;> simp [h1, h2, h3] <;> omega

end Sys2Proof.Machine
end

