-- ==== Sys2Proof/Laws/Line.lean ====
section
/-! SUPPORT. What the rasterizer computes, with the case split of 43_line_rasterizer.md R182 done once, and what a commit
writes (R188, R189, R192). -/

namespace Sys2Proof.Machine

/-- The stepping axis is the longer one (43 R182). -/
theorem dominant_natAbs (da db : Int) : ((segmentOf da db).dominant da db).natAbs = max da.natAbs db.natAbs := by
  unfold segmentOf
  by_cases h1 : da = 0 <;> by_cases h2 : db = 0 <;> simp [h1, h2, Segment.dominant]
  by_cases h3 : db.natAbs ≤ da.natAbs <;> simp [h3]
  omega

/-- The four cases are two formulas, and the division guard is never met (43 R188). -/
theorem linePoints_eq (x0 y0 x1 y1 mindots : Half) :
    linePoints x0 y0 x1 y1 mindots = some (
      if q16 x1 - q16 x0 = 0 ∧ q16 y1 - q16 y0 = 0 then [(zeroCoord (q16 x0), zeroCoord (q16 y0))]
      else steppedPoints (q16 x0) (q16 y0) (q16 x1 - q16 x0) (q16 y1 - q16 y0)
        (max (q16 x1 - q16 x0).natAbs (q16 y1 - q16 y0).natAbs) mindots.toNat) := by
  unfold linePoints
  simp only [dominant_natAbs]
  generalize q16 x1 - q16 x0 = da
  generalize q16 y1 - q16 y0 = db
  unfold segmentOf
  by_cases h1 : da = 0 <;> by_cases h2 : db = 0 <;> simp [h1, h2]
  by_cases h3 : db.natAbs ≤ da.natAbs <;> simp [h3]

theorem steppedPoints_length (a0 b0 da db : Int) (m n : Nat) :
    (steppedPoints a0 b0 da db m n).length = max (m / 16 + 1) n := by
  unfold steppedPoints naturalPoints subdividedPoints naturalCount
  split <;> simp <;> omega

theorem inBox_iff (p : Point) : inBox p = true ↔ 0 ≤ p.1 ∧ p.1 ≤ 83 ∧ 0 ≤ p.2 ∧ p.2 ≤ 47 := by
  simp [inBox, and_assoc]

@[simp] theorem plot_nil (era : Nat) (m : Memory) : Memory.plot era m [] = m := rfl
theorem plot_cons (era : Nat) (m : Memory) (p : Point) (ps : List Point) :
    Memory.plot era m (p :: ps) = Memory.plot era (Memory.setPixel era m p.1.toNat p.2.toNat) ps := rfl

theorem plot_wf {m : Memory} (era : Nat) (ps : List Point) (h : Memory.wf m) : Memory.wf (Memory.plot era m ps) := by
  induction ps generalizing m with
  | nil => exact h
  | cons p ps ih => exact ih (Memory.setPixel_wf _ _ _ h)

/-- A commit of points of the panel sets exactly their pixels (43 R192). -/
theorem pixel_plot (era : Nat) {ps : List Point} {m : Memory} (h : ∀ p ∈ ps, inBox p = true) {x y : Nat} (hx : x ≤ 83) :
    Memory.pixel era (Memory.plot era m ps) x y = (Memory.pixel era m x y || decide (((x : Int), (y : Int)) ∈ ps)) := by
  induction ps generalizing m with
  | nil => simp
  | cons p ps ih =>
    obtain ⟨h1, h2, h3, h4⟩ := (inBox_iff p).mp (h p (by simp))
    rw [plot_cons, ih (fun q hq => h q (by simp [hq])), Memory.pixel_setPixel _ _ (by omega) (by omega) hx, Bool.or_assoc,
      ← Bool.decide_or]
    congr 1
    rw [decide_eq_decide, List.mem_cons, Prod.ext_iff]
    have : (x = p.1.toNat ∧ y = p.2.toNat) ↔ ((x : Int) = p.1 ∧ (y : Int) = p.2) := by omega
    rw [this]

/-- A commit of points of the panel writes no byte outside the framebuffer (20 R45). -/
theorem read_plot_outside (era : Nat) {ps : List Point} {m : Memory} (h : ∀ p ∈ ps, inBox p = true) {a : Nat}
    (ha : 504 ≤ a) : Memory.read era (Memory.plot era m ps) a = Memory.read era m a := by
  induction ps generalizing m with
  | nil => rfl
  | cons p ps ih =>
    obtain ⟨h1, h2, h3, h4⟩ := (inBox_iff p).mp (h p (by simp))
    have hl : pixIndex p.1.toNat p.2.toNat < 504 := pixIndex_lt (by omega) (by omega)
    rw [plot_cons, ih (fun q hq => h q (by simp [hq])), Memory.read_setPixel _ _ (by omega) (by omega), if_neg (by omega)]

/-- Everything LINE can do: reject the whole line, or commit it (43 R191, R192). -/
theorem execLine_cases (x0 y0 x1 y1 mindots : Half) (s : State) :
    ∃ ps, linePoints x0 y0 x1 y1 mindots = some ps ∧
      (((∃ p ∈ ps, inBox p = false) ∧ execLine x0 y0 x1 y1 mindots s = .next ((s.setLncnt 0).raise .oob)) ∨
       ((∀ p ∈ ps, inBox p = true) ∧
        execLine x0 y0 x1 y1 mindots s = .next ((s.setFb (Memory.plot s.fbEra s.fb ps)).setLncnt ps.length).pass)) := by
  refine ⟨_, linePoints_eq x0 y0 x1 y1 mindots, ?_⟩
  unfold execLine
  rw [linePoints_eq]
  generalize (if q16 x1 - q16 x0 = 0 ∧ q16 y1 - q16 y0 = 0 then [(zeroCoord (q16 x0), zeroCoord (q16 y0))]
      else steppedPoints (q16 x0) (q16 y0) (q16 x1 - q16 x0) (q16 y1 - q16 y0)
        (max (q16 x1 - q16 x0).natAbs (q16 y1 - q16 y0).natAbs) mindots.toNat) = ps
  by_cases h : ps.all inBox = true
  · exact .inr ⟨fun p hp => List.all_eq_true.mp h p hp, by simp only [h, if_true]⟩
  · refine .inl ⟨?_, by simp only [h]; rfl⟩
    simpa using h

end Sys2Proof.Machine
end

