-- ==== Sys2Proof/Laws/PerInstr.lean ====
section
/-! SUPPORT. The lemmas the host's case split asks for, one a constructor: the first byte of an instruction's encoding is of
the row of spec/opcode_table.json that bears its mnemonic (30_encoding.md R70, R71). -/

namespace Sys2Proof.Laws.OpcodeRow

/-- A row of the table covers the instruction's opcode byte and bears its mnemonic. -/
def Statement (i : Instr) : Prop := ∃ r ∈ opcodeRows, r.covers (opcodeOf i) = true ∧ r.mnemonic = mnemonicOf i

theorem nop : Statement .nop :=
  ⟨⟨"NOP", 0x00#8, 0xFF#8⟩, by decide, by simp [OpcodeRow.covers, opcodeOf], rfl⟩
theorem init : Statement .init :=
  ⟨⟨"INIT", 0x01#8, 0xFF#8⟩, by decide, by simp [OpcodeRow.covers, opcodeOf], rfl⟩
theorem clear : Statement .clear :=
  ⟨⟨"CLEAR", 0x02#8, 0xFF#8⟩, by decide, by simp [OpcodeRow.covers, opcodeOf], rfl⟩
theorem gotoxy (x page : Byte) : Statement (.gotoxy x page) :=
  ⟨⟨"GOTOXY", 0x03#8, 0xFF#8⟩, by decide, by simp [OpcodeRow.covers, opcodeOf], rfl⟩
theorem bitmap (payload : List Byte) : Statement (.bitmap payload) :=
  ⟨⟨"BITMAP", 0x04#8, 0xFF#8⟩, by decide, by simp [OpcodeRow.covers, opcodeOf], rfl⟩
theorem setpx (x y : Byte) : Statement (.setpx x y) :=
  ⟨⟨"SETPX", 0x05#8, 0xFF#8⟩, by decide, by simp [OpcodeRow.covers, opcodeOf], rfl⟩
theorem clrpx (x y : Byte) : Statement (.clrpx x y) :=
  ⟨⟨"CLRPX", 0x06#8, 0xFF#8⟩, by decide, by simp [OpcodeRow.covers, opcodeOf], rfl⟩
theorem putc (c : Byte) : Statement (.putc c) :=
  ⟨⟨"PUTC", 0x07#8, 0xFF#8⟩, by decide, by simp [OpcodeRow.covers, opcodeOf], rfl⟩
theorem puts (str : List Byte) : Statement (.puts str) :=
  ⟨⟨"PUTS", 0x08#8, 0xFF#8⟩, by decide, by simp [OpcodeRow.covers, opcodeOf], rfl⟩
theorem putcxy (x page c : Byte) : Statement (.putcxy x page c) :=
  ⟨⟨"PUTCXY", 0x09#8, 0xFF#8⟩, by decide, by simp [OpcodeRow.covers, opcodeOf], rfl⟩
theorem putsxy (x page : Byte) (str : List Byte) : Statement (.putsxy x page str) :=
  ⟨⟨"PUTSXY", 0x0A#8, 0xFF#8⟩, by decide, by simp [OpcodeRow.covers, opcodeOf], rfl⟩
theorem wrxy (x page : Byte) (len : Half) (payload : List Byte) : Statement (.wrxy x page len payload) :=
  ⟨⟨"WRXY", 0x0B#8, 0xFF#8⟩, by decide, by simp [OpcodeRow.covers, opcodeOf], rfl⟩
theorem clrrng (x page : Byte) (len : Half) : Statement (.clrrng x page len) :=
  ⟨⟨"CLRRNG", 0x0C#8, 0xFF#8⟩, by decide, by simp [OpcodeRow.covers, opcodeOf], rfl⟩
theorem sync : Statement .sync :=
  ⟨⟨"SYNC", 0x0D#8, 0xFF#8⟩, by decide, by simp [OpcodeRow.covers, opcodeOf], rfl⟩
theorem line (x0 y0 x1 y1 mindots : Half) : Statement (.line x0 y0 x1 y1 mindots) :=
  ⟨⟨"LINE", 0x0E#8, 0xFF#8⟩, by decide, by simp [OpcodeRow.covers, opcodeOf], rfl⟩
theorem rdpix (x y : Byte) : Statement (.rdpix x y) :=
  ⟨⟨"RDPIX", 0x10#8, 0xFF#8⟩, by decide, by simp [OpcodeRow.covers, opcodeOf], rfl⟩
theorem rdbyte (idx : Half) : Statement (.rdbyte idx) :=
  ⟨⟨"RDBYTE", 0x11#8, 0xFF#8⟩, by decide, by simp [OpcodeRow.covers, opcodeOf], rfl⟩
theorem rsvd0F : Statement .rsvd0F :=
  ⟨⟨"RSVD_0F", 0x0F#8, 0xFF#8⟩, by decide, by simp [OpcodeRow.covers, opcodeOf], rfl⟩
theorem rsvd12 (low : BitVec 1) : Statement (.rsvd12 low) :=
  ⟨⟨"RSVD_12_13", 0x12#8, 0xFE#8⟩, by decide, by revert low; decide, rfl⟩
theorem rsvd14 (low : BitVec 2) : Statement (.rsvd14 low) :=
  ⟨⟨"RSVD_14_17", 0x14#8, 0xFC#8⟩, by decide, by revert low; decide, rfl⟩
theorem rsvd18 (low : BitVec 3) : Statement (.rsvd18 low) :=
  ⟨⟨"RSVD_18_1F", 0x18#8, 0xF8#8⟩, by decide, by revert low; decide, rfl⟩
theorem rsvd20 (low : BitVec 5) : Statement (.rsvd20 low) :=
  ⟨⟨"RSVD_20_3F", 0x20#8, 0xE0#8⟩, by decide, by revert low; decide, rfl⟩
theorem rsvd40 (low : BitVec 6) : Statement (.rsvd40 low) :=
  ⟨⟨"RSVD_40_7F", 0x40#8, 0xC0#8⟩, by decide, by revert low; decide, rfl⟩
theorem rsvd80 (low : BitVec 7) : Statement (.rsvd80 low) :=
  ⟨⟨"RSVD_80_FF", 0x80#8, 0x80#8⟩, by decide, by revert low; decide, rfl⟩

end Sys2Proof.Laws.OpcodeRow
end

