-- ==== Sys2Proof/Laws/Wire.lean ====
section
/-! SUPPORT. What the wire micro-operations of INIT and SYNC can do (41_spi_transport.md R130 to R134, 70_reset_and_hazards.md
R262): run to the end where the bus completes every byte, or stop at the first byte it does not complete. -/

namespace Sys2Proof.Machine

/-- The events of one micro-operation (41 R130 to R132). -/
def eventsOf : MicroOp → List WireEvent
  | .resetPulse => [.rstAssert, .rstRelease]
  | .send dc v => [.byte dc v]

/-- How many bytes a list of micro-operations clocks out. -/
def byteCount : List MicroOp → Nat
  | [] => 0
  | .resetPulse :: ops => byteCount ops
  | .send _ _ :: ops => byteCount ops + 1

@[simp] theorem eventsOf_pulse : eventsOf .resetPulse = [.rstAssert, .rstRelease] := rfl
@[simp] theorem eventsOf_send (dc : Bool) (v : Byte) : eventsOf (.send dc v) = [.byte dc v] := rfl
@[simp] theorem byteCount_nil : byteCount [] = 0 := rfl
@[simp] theorem byteCount_pulse (ops : List MicroOp) : byteCount (.resetPulse :: ops) = byteCount ops := rfl
@[simp] theorem byteCount_send (dc : Bool) (v : Byte) (ops : List MicroOp) :
    byteCount (.send dc v :: ops) = byteCount ops + 1 := rfl

theorem byteCount_append (a b : List MicroOp) : byteCount (a ++ b) = byteCount a + byteCount b := by
  induction a with
  | nil => simp
  | cons op a ih => cases op <;> simp [ih]; omega

@[simp] theorem byteCount_sendCommands (bs : List Byte) : byteCount (sendCommands bs) = bs.length := by
  induction bs with
  | nil => rfl
  | cons b bs ih => simpa [sendCommands] using ih

@[simp] theorem byteCount_sendDatas (bs : List Byte) : byteCount (sendDatas bs) = bs.length := by
  induction bs with
  | nil => rfl
  | cons b bs ih => simpa [sendDatas] using ih

theorem busCompletes_byteDone {s : State} {n : Nat} (h : s.busCompletes (n + 1) = true) : s.byteDone = true := by
  unfold State.busCompletes at h
  unfold State.byteDone
  cases hb : s.bus with
  | none => rfl
  | some k => cases k <;> simp_all

theorem busCompletes_sendByte {s : State} {n : Nat} (dc : Bool) (v : Byte) (h : s.busCompletes (n + 1) = true) :
    (s.sendByte dc v).busCompletes n = true := by
  unfold State.busCompletes at h ⊢
  cases hb : s.bus with
  | none => simp [hb]
  | some k => simp [hb] at h ⊢; omega

/-! ### What a run of micro-operations never changes -/

section
variable (f : Finish) (ops : List MicroOp) (s : State)

/-- A field that no micro-operation and no last line writes comes out of a run as it went in. -/
theorem runOps_keeps {α : Type} (g : State → α) (hp : ∀ s, g s.resetPulse = g s)
    (hb : ∀ s dc v, g (s.sendByte dc v) = g s) (hh : ∀ s dc v ops, g (s.hold f dc v ops) = g s)
    (hf : ∀ s, g (f.apply s) = g s) : g (runOps f ops s) = g s := by
  induction ops generalizing s with
  | nil => exact hf s
  | cons op ops ih =>
    cases op with
    | resetPulse => exact (ih _).trans (hp s)
    | send dc v =>
      unfold runOps
      split
      · exact (ih _).trans (hb s dc v)
      · exact hh s dc v _

@[simp] theorem runOps_fb : (runOps f ops s).fb = s.fb := by
  apply runOps_keeps f ops s (·.fb) <;> intros <;> first | rfl | (cases f <;> rfl)
@[simp] theorem runOps_fbEra : (runOps f ops s).fbEra = s.fbEra := by
  apply runOps_keeps f ops s (·.fbEra) <;> intros <;> first | rfl | (cases f <;> rfl)
@[simp] theorem runOps_cx : (runOps f ops s).cx = s.cx := by
  apply runOps_keeps f ops s (·.cx) <;> intros <;> first | rfl | (cases f <;> rfl)
@[simp] theorem runOps_cp : (runOps f ops s).cp = s.cp := by
  apply runOps_keeps f ops s (·.cp) <;> intros <;> first | rfl | (cases f <;> rfl)
@[simp] theorem runOps_cend : (runOps f ops s).cend = s.cend := by
  apply runOps_keeps f ops s (·.cend) <;> intros <;> first | rfl | (cases f <;> rfl)
@[simp] theorem runOps_result : (runOps f ops s).result = s.result := by
  apply runOps_keeps f ops s (·.result) <;> intros <;> first | rfl | (cases f <;> rfl)
@[simp] theorem runOps_lncnt : (runOps f ops s).lncnt = s.lncnt := by
  apply runOps_keeps f ops s (·.lncnt) <;> intros <;> first | rfl | (cases f <;> rfl)
@[simp] theorem runOps_dec : (runOps f ops s).dec = s.dec := by
  apply runOps_keeps f ops s (·.dec) <;> intros <;> first | rfl | (cases f <;> rfl)
@[simp] theorem runOps_trdy : (runOps f ops s).trdy = s.trdy := by
  apply runOps_keeps f ops s (·.trdy) <;> intros <;> first | rfl | (cases f <;> rfl)
@[simp] theorem runOps_input : (runOps f ops s).input = s.input := by
  apply runOps_keeps f ops s (·.input) <;> intros <;> first | rfl | (cases f <;> rfl)
@[simp] theorem runOps_params : (runOps f ops s).params = s.params := by
  apply runOps_keeps f ops s (·.params) <;> intros <;> first | rfl | (cases f <;> rfl)

end

/-! ### Running to the end -/

/-- One micro-operation with its byte done. -/
def doOp (s : State) : MicroOp → State
  | .resetPulse => s.resetPulse
  | .send dc v => s.sendByte dc v

/-- Where the bus completes every byte, a run is its micro-operations in order and then the last lines. -/
theorem runOps_complete (f : Finish) (ops : List MicroOp) (s : State) (h : s.busCompletes (byteCount ops) = true) :
    runOps f ops s = f.apply (ops.foldl doOp s) := by
  induction ops generalizing s with
  | nil => rfl
  | cons op ops ih =>
    cases op with
    | resetPulse => exact ih s.resetPulse h
    | send dc v =>
      have hd : s.byteDone = true := busCompletes_byteDone h
      simp only [runOps, hd, if_true, List.foldl_cons]
      exact ih _ (busCompletes_sendByte dc v h)

/-- The trace after a list of micro-operations is the trace before and their events in order (41 R134). -/
theorem foldl_doOp_wire (ops : List MicroOp) (s : State) : (ops.foldl doOp s).wire = s.wire ++ ops.flatMap eventsOf := by
  induction ops generalizing s with
  | nil => simp
  | cons op ops ih => cases op <;> simp [ih, doOp]

@[simp] theorem framesOf_nil (f : PinFormat) : framesOf f [] = [] := rfl

theorem framesOf_append (f : PinFormat) (as bs : List WireEvent) : framesOf f (as ++ bs) = framesOf f as ++ framesOf f bs := by
  simp [framesOf]

@[simp] theorem framesOf_byte (f : PinFormat) (dc : Bool) (v : Byte) : framesOf f [.byte dc v] = [spiFrame f dc v] := rfl
@[simp] theorem framesOf_pulse (f : PinFormat) : framesOf f [.rstAssert, .rstRelease] = [] := rfl

theorem foldl_doOp_params (ops : List MicroOp) (s : State) : (ops.foldl doOp s).params = s.params := by
  induction ops generalizing s with
  | nil => rfl
  | cons op ops ih => cases op <;> simp [ih, doOp]

/-- The pin trace after a list of micro-operations is the one before and the pin sequences of their bytes in order (41 R136). -/
theorem foldl_doOp_pinTrace (ops : List MicroOp) (s : State) :
    (ops.foldl doOp s).pinTrace = s.pinTrace ++ framesOf s.params.pinFormat (ops.flatMap eventsOf) := by
  induction ops generalizing s with
  | nil => simp
  | cons op ops ih => cases op <;> simp [ih, doOp, framesOf, eventsOf]

theorem flatMap_sendCommands (bs : List Byte) : (sendCommands bs).flatMap eventsOf = bs.map (WireEvent.byte false) := by
  induction bs with
  | nil => rfl
  | cons b bs ih => simpa [sendCommands] using ih

theorem flatMap_sendDatas (bs : List Byte) : (sendDatas bs).flatMap eventsOf = bs.map (WireEvent.byte true) := by
  induction bs with
  | nil => rfl
  | cons b bs ih => simpa [sendDatas] using ih

/-! ### The pin sequence of one byte (41 R136) -/

@[simp] theorem spiFrame_length (f : PinFormat) (dc : Bool) (v : Byte) : (spiFrame f dc v).length = 18 := by simp [spiFrame]

/-- Stage `i` of a byte's pin sequence. -/
theorem spiFrame_getElem? (f : PinFormat) (dc : Bool) (v : Byte) {i : Nat} (h : i < 17) :
    (spiFrame f dc v)[i]? = some (pinStage f dc v i) := by
  simp [spiFrame, List.getElem?_append, h]

/-- SCE is active while a byte is in flight, wherever the bus stalls (41 R136, 70 R262, log 6). -/
@[simp] theorem pinStage_sce (f : PinFormat) (dc : Bool) (v : Byte) (i : Nat) : (pinStage f dc v i).sce = f.sceActive := rfl
@[simp] theorem pinStage_dc (f : PinFormat) (dc : Bool) (v : Byte) (i : Nat) : (pinStage f dc v i).dc = dc := rfl

@[simp] theorem fbBytes_length (s : State) : s.fbBytes.length = 504 := by simp [State.fbBytes]

end Sys2Proof.Machine
end

