-- ==== Sys2Proof/Laws/Step.lean ====
section
/-! SUPPORT. What a step takes from the command port, and that the decoder stays among its own states (10_state.md R12,
30_encoding.md R61, R64; 70_reset_and_hazards.md R262). -/

namespace Sys2Proof.Machine

@[simp] theorem pushes_nil : pushes [] = [] := rfl
@[simp] theorem pushes_cons (b : Byte) (bs : List Byte) : pushes (b :: bs) = .write 0 b :: pushes bs := rfl

/-- Bytes at the command port: the packet they complete is run, or DEC alone moves and the rest of the events is taken. -/
theorem takeInput_pushes (bytes : List Byte) (es : List PortEvent) (s : State) :
    takeInput (pushes bytes ++ es) s = match s.dec.feed bytes with
      | .packet i rest => exec i { s with dec := .idle, input := pushes rest ++ es }
      | .incomplete d => takeInput es { s with dec := d } := by
  induction bytes generalizing s with
  | nil => rfl
  | cons b bs ih =>
    rw [pushes_cons, List.cons_append, takeInput, feed_cons]
    simp only [if_true]
    cases s.dec.push b with
    | more d => exact ih { s with dec := d }
    | done i => rfl

theorem step_idle {s : State} (h : s.busy = none) : step s = takeInput s.input s := by
  simp [step, engineStep, h]

theorem step_held {s : State} {t : Transfer} (h : s.busy = some t) : step s = heldStep t s := by
  simp [step, engineStep, h]

/-- Everything the platform can do to a held engine (70 R253, R262). -/
theorem heldInput_cases (waiting es : List PortEvent) (s : State) :
    heldInput waiting es s = s ∨ (∃ level rest, heldInput waiting es s = { s with trdy := level, input := rest }) ∨
    (∃ bytes rest, heldInput waiting es s = { s with bus := bytes, input := rest }) ∨
    ∃ rest, heldInput waiting es s = { s with input := rest }.engineReset := by
  induction es generalizing waiting with
  | nil => exact .inl rfl
  | cons e es ih =>
    cases e with
    | write offset v => exact ih _
    | trdy level => exact .inr (.inl ⟨_, _, rfl⟩)
    | bus bytes => exact .inr (.inr (.inl ⟨_, _, rfl⟩))
    | erst => exact .inr (.inr (.inr ⟨_, rfl⟩))

/-- Host writes alone do nothing to a held engine (10 R21). -/
theorem heldInput_writes (waiting es : List PortEvent) (s : State) (h : ∀ e ∈ es, ∃ offset v, e = .write offset v) :
    heldInput waiting es s = s := by
  induction es generalizing waiting with
  | nil => rfl
  | cons e es ih =>
    obtain ⟨offset, v, rfl⟩ := h e (by simp)
    exact ih _ (fun e he => h e (by simp [he]))

/-- Latched operands complete a packet or bring the decoder into a legal state. -/
theorem afterOperands_ok (op : Byte) (opb : List Byte) (h : opb.length = (formatOf op).noper) :
    (∃ i, afterOperands op opb = .done i) ∨ ∃ d, afterOperands op opb = .more d ∧ decOk d = true := by
  unfold afterOperands
  cases hp : (formatOf op).payload opb with
  | none => exact .inl ⟨_, rfl⟩
  | counted n =>
    cases n with
    | zero => exact .inl ⟨_, rfl⟩
    | succ n => exact .inr ⟨_, rfl, by simp [decOk, h, hp]⟩
  | terminated => exact .inr ⟨_, rfl, by simp [decOk, h, hp, strOk]⟩

/-- One byte completes a packet or keeps the decoder in a legal state. -/
theorem push_ok (d : Dec) (b : Byte) (h : decOk d = true) :
    (∃ i, d.push b = .done i) ∨ ∃ d', d.push b = .more d' ∧ decOk d' = true := by
  cases d with
  | idle =>
    unfold Dec.push
    cases hn : (formatOf b).noper with
    | zero => exact afterOperands_ok b [] (by simp [hn])
    | succ k => exact .inr ⟨_, rfl, by simp [decOk, hn]⟩
  | operands op k l =>
    simp [decOk] at h
    match k, h with
    | 1, h => exact afterOperands_ok op (l ++ [b]) (by simp; omega)
    | k + 2, h => exact .inr ⟨_, rfl, by simp [decOk]; omega⟩
  | payloadN op opb r buf =>
    simp [decOk] at h
    match r, h with
    | 1, h => exact .inl ⟨_, rfl⟩
    | r + 2, h => exact .inr ⟨_, rfl, by simp [decOk, h]; omega⟩
  | payloadZ op opb buf =>
    simp [decOk] at h
    unfold Dec.push
    by_cases hb : b = Config.stringTerm
    · exact .inl ⟨_, if_pos hb⟩
    · exact .inr ⟨_, if_neg hb, by simp_all [decOk, strOk]⟩

/-- Where the bus stalls inside a run, what precedes the stalled byte is done and the command is held at that byte. -/
theorem runOps_stall (f : Finish) (ops : List MicroOp) (s : State) (k : Nat) (hk : s.bus = some k)
    (hlt : k < byteCount ops) :
    ∃ done dc v rest, ops = done ++ .send dc v :: rest ∧ byteCount done = k ∧
      (done.foldl doOp s).bus = some 0 ∧ runOps f ops s = (done.foldl doOp s).hold f dc v rest := by
  induction ops generalizing s k with
  | nil => simp at hlt
  | cons op ops ih =>
    cases op with
    | resetPulse =>
      obtain ⟨done, dc, v, rest, h1, h2, h3, h4⟩ := ih s.resetPulse k hk hlt
      exact ⟨.resetPulse :: done, dc, v, rest, by simp [h1], by simp [h2], h3, h4⟩
    | send dc v =>
      cases k with
      | zero => exact ⟨[], dc, v, ops, rfl, rfl, hk, by simp [runOps, State.byteDone, hk]⟩
      | succ k =>
        obtain ⟨done, dc', v', rest, h1, h2, h3, h4⟩ :=
          ih (s.sendByte dc v) k (by simp [hk]) (by simpa using hlt)
        have hd : s.byteDone = true := by simp [State.byteDone, hk]
        refine ⟨.send dc v :: done, dc', v', rest, by simp [h1], by simp [h2], h3, ?_⟩
        rw [runOps, if_pos hd]
        exact h4

end Sys2Proof.Machine
end

