-- ==== Sys2Proof/Laws/Text.lean ====
section
/-! SUPPORT. What the glyph blitter and one character at a cursor can do, each said once (42_glyph_text.md R150, R151, R153). -/

namespace Sys2Proof.Machine

/-- The three checks of GLYPH_AT in the rule's own numbers (42 R150). -/
theorem cellFits_iff (p : Params) (x page : Nat) (c : Byte) :
    cellFits p x page c = true ↔
      p.fontFirst.toNat ≤ c.toNat ∧ c.toNat ≤ p.fontLast.toNat ∧ x + 84 * page + 6 ≤ 504 := by
  simp [cellFits, inFont, runOff, and_assoc]

@[simp] theorem cellBytes_length (p : Params) (c : Byte) : (cellBytes p c).length = 6 := by simp [cellBytes, fontBytes]

/-- Everything GLYPH_AT can do: OOB, or the cell written (42 R150). -/
theorem glyphAt_cases (p : Params) (x page : Nat) (c : Byte) (m : Memory) :
    ((c.toNat < p.fontFirst.toNat ∨ p.fontLast.toNat < c.toNat ∨ 504 < x + 84 * page + 6) ∧ glyphAt p x page c m = none) ∨
    (p.fontFirst.toNat ≤ c.toNat ∧ c.toNat ≤ p.fontLast.toNat ∧ x + 84 * page + 6 ≤ 504 ∧
      glyphAt p x page c m = some (Memory.writeRun m (runOff x page) (cellBytes p c))) := by
  unfold glyphAt
  by_cases h : cellFits p x page c = true
  · obtain ⟨h1, h2, h3⟩ := (cellFits_iff p x page c).mp h
    exact .inr ⟨h1, h2, h3, if_pos h⟩
  · refine .inl ⟨?_, if_neg h⟩
    rw [cellFits_iff] at h
    omega

/-- The cell of a code in range, where the ROM holds a glyph for every code of its range: entry `c - FONT_FIRST` of the font and a
blank column (10 R28, 42 R150). -/
theorem cellBytes_of_font {p : Params} {c : Byte} (hp : p.wf) (h1 : p.fontFirst.toNat ≤ c.toNat) (h2 : c.toNat ≤ p.fontLast.toNat) :
    ∃ g, p.font[c.toNat - p.fontFirst.toNat]? = some g ∧ cellBytes p c = [g.c0, g.c1, g.c2, g.c3, g.c4, 0#8] := by
  have h : c.toNat - p.fontFirst.toNat < p.font.length := by have := hp.1; omega
  exact ⟨_, List.getElem?_eq_getElem h, by simp [cellBytes, fontBytes, List.getElem?_eq_getElem h]⟩

/-- What a written cell reads as: five glyph columns, a blank one, every other byte as before (42 R150). -/
theorem read_cell (era : Nat) (m : Memory) (off : Nat) (p : Params) (c : Byte) (h : off + 6 ≤ 504) :
    (∀ k, k < 5 → Memory.read era (Memory.writeRun m off (cellBytes p c)) (off + k) = (fontBytes p c).getD k 0#8) ∧
    Memory.read era (Memory.writeRun m off (cellBytes p c)) (off + 5) = 0#8 ∧
    ∀ a, a < off ∨ off + 6 ≤ a → Memory.read era (Memory.writeRun m off (cellBytes p c)) a = Memory.read era m a := by
  refine ⟨fun k hk => ?_, ?_, fun a ha => ?_⟩
  · rw [Memory.read_writeRun, if_pos (by simp; omega)]
    have : k = 0 ∨ k = 1 ∨ k = 2 ∨ k = 3 ∨ k = 4 := by omega
    rcases this with h | h | h | h | h <;> subst h <;> simp [cellBytes, fontBytes]
  · rw [Memory.read_writeRun, if_pos (by simp; omega)]
    simp [cellBytes, fontBytes]
  · rw [Memory.read_writeRun, if_neg (by simp; omega)]

/-- Everything one character at a cursor can do: refused, with nothing written and the cursor kept, or the cell written and
the cursor advanced (42 R153). -/
theorem put_cases (p : Params) (pen : Pen) (c : Byte) :
    ((pen.cur.past = true ∨ c.toNat < p.fontFirst.toNat ∨ p.fontLast.toNat < c.toNat ∨
        504 < pen.cur.x + 84 * pen.cur.page + 6) ∧ Pen.put p pen c = pen.refuse) ∨
    (pen.cur.past = false ∧ p.fontFirst.toNat ≤ c.toNat ∧ c.toNat ≤ p.fontLast.toNat ∧
      pen.cur.x + 84 * pen.cur.page + 6 ≤ 504 ∧
      Pen.put p pen c =
        { pen with
          cur := advance pen.cur.x pen.cur.page
          mem := Memory.writeRun pen.mem (runOff pen.cur.x pen.cur.page) (cellBytes p c) }) := by
  unfold Pen.put
  cases hp : pen.cur.past with
  | true => simp
  | false =>
    rcases glyphAt_cases p pen.cur.x pen.cur.page c pen.mem with ⟨h, e⟩ | ⟨h1, h2, h3, e⟩
    · exact .inl ⟨.inr h, by simp [e]⟩
    · exact .inr ⟨rfl, h1, h2, h3, by simp [e]⟩

/-- ADVANCE gives a legal cursor, at (0, 5) when it is past the end (42 R151). -/
theorem advance_legal {x page : Nat} (hp : page ≤ 5) :
    (advance x page).x ≤ 83 ∧ (advance x page).page ≤ 5 ∧
      ((advance x page).past = true → (advance x page).x = 0 ∧ (advance x page).page = 5) := by
  unfold advance
  split
  · simp_all
  · split <;> simp_all

/-- Taking the cursor a state has changes nothing. -/
@[simp] theorem setCursor_cursor (s : State) : s.setCursor s.cursor = s := by
  simp [State.setCursor, State.cursor]

end Sys2Proof.Machine
end

