-- ==== Sys2Proof/Tests/Slice0.lean ====
section
/-! SUPPORT. The model's own tests: ill-formed terms refused, words written out from the spec's encodings, one step each with the
values of 95_test_vectors.md, and for every statement with hypotheses a state and operands that meet them. -/

open Sys2Proof Sys2Proof.Machine

namespace Sys2Proof.Tests

/-- The state an outcome goes on with. -/
def after (o : Host.Outcome State Fault Refusal) : State :=
  match o with
  | .next t => t
  | .fault _ => State.reset
  | .refused _ => State.reset

/-- One step with these bytes written to the command port. -/
def push (s : State) (bytes : List Byte) : State := after (step { s with input := pushes bytes })

/-- The reset state with some framebuffer bytes known. -/
def withFb (cells : List Host.Cell) : State := { State.reset with fb := cells }

/-- The reset state with the cursor at a place. -/
def at' (x : BitVec 7) (page : BitVec 3) : State := { State.reset with cx := x, cp := page }

/-! ### WellFormed: every check refuses something -/

theorem test_wf_bitmap_short : Instr.wf (.bitmap [0x00#8]) = false := by decide
theorem test_wf_puts_terminator : Instr.wf (.puts [0x41#8, 0x00#8]) = false := by decide
theorem test_wf_putsxy_terminator : Instr.wf (.putsxy 0#8 0#8 [0x00#8]) = false := by decide
theorem test_wf_wrxy_length : Instr.wf (.wrxy 0#8 0#8 2#16 [0xAA#8]) = false := by decide
theorem test_wf_out_of_range_operand : Instr.wf (.setpx 0xFF#8 0xFF#8) = true := by decide

/-! ### Decoding: words written out from 30_encoding.md R66, R70, R71, R76, a family or a constructor each -/

theorem test_decode_z :
    decode [0x00#8] = .packet .nop [] ∧ decode [0x01#8] = .packet .init [] ∧ decode [0x02#8] = .packet .clear [] ∧
    decode [0x0D#8] = .packet .sync [] := by decide
theorem test_decode_gotoxy : decode [0x03#8, 0x0C#8, 0x03#8] = .packet (.gotoxy 12#8 3#8) [] := by decide
theorem test_decode_pixels :
    decode [0x05#8, 0x0A#8, 0x13#8] = .packet (.setpx 10#8 19#8) [] ∧
    decode [0x06#8, 0x53#8, 0x2F#8] = .packet (.clrpx 83#8 47#8) [] ∧
    decode [0x10#8, 0x54#8, 0x00#8] = .packet (.rdpix 84#8 0#8) [] := by decide
theorem test_decode_putc : decode [0x07#8, 0x41#8] = .packet (.putc 0x41#8) [] := by decide
theorem test_decode_puts_then_nop : decode [0x08#8, 0x41#8, 0x00#8, 0x00#8] = .packet (.puts [0x41#8]) [0x00#8] := by decide
theorem test_decode_putcxy : decode [0x09#8, 0x4E#8, 0x05#8, 0x5A#8] = .packet (.putcxy 78#8 5#8 0x5A#8) [] := by decide
theorem test_decode_putsxy :
    decode [0x0A#8, 0x00#8, 0x02#8, 0x48#8, 0x69#8, 0x00#8] = .packet (.putsxy 0#8 2#8 [0x48#8, 0x69#8]) [] := by decide
theorem test_decode_wrxy_payload_is_no_packet :
    decode [0x0B#8, 0x00#8, 0x00#8, 0x02#8, 0x00#8, 0x05#8, 0x0A#8] = .packet (.wrxy 0#8 0#8 2#16 [0x05#8, 0x0A#8]) [] := by
  decide
theorem test_decode_wrxy_empty : decode [0x0B#8, 0x53#8, 0x05#8, 0x00#8, 0x00#8] = .packet (.wrxy 83#8 5#8 0#16 []) [] := by
  decide
theorem test_decode_clrrng_low_byte_first :
    decode [0x0C#8, 0x00#8, 0x00#8, 0xF8#8, 0x01#8] = .packet (.clrrng 0#8 0#8 504#16) [] := by decide
theorem test_decode_line :
    decode [0x0E#8, 0xA0#8, 0x05#8, 0xF7#8, 0xFF#8, 0xA0#8, 0x00#8, 0x28#8, 0x00#8, 0x14#8, 0x00#8] =
      .packet (.line 0x05A0#16 0xFFF7#16 0x00A0#16 0x0028#16 20#16) [] := by decide
theorem test_decode_rdbyte : decode [0x11#8, 0xF7#8, 0x01#8] = .packet (.rdbyte 503#16) [] := by decide
theorem test_decode_reserved :
    decode [0x0F#8] = .packet .rsvd0F [] ∧ decode [0x13#8] = .packet (.rsvd12 1#1) [] ∧
    decode [0x17#8] = .packet (.rsvd14 3#2) [] ∧ decode [0x18#8] = .packet (.rsvd18 0#3) [] ∧
    decode [0x20#8] = .packet (.rsvd20 0#5) [] ∧ decode [0x7F#8] = .packet (.rsvd40 0x3F#6) [] ∧
    decode [0xFF#8] = .packet (.rsvd80 0x7F#7) [] := by decide
theorem test_decode_bitmap_waits :
    decode [0x04#8, 0xAA#8] = .incomplete (.payloadN 0x04#8 [] 503 [0xAA#8]) := by decide
theorem test_decode_line_waits_for_byte_eleven :
    decode [0x0E#8, 0x00#8, 0x00#8, 0x00#8, 0x00#8, 0x50#8, 0x00#8, 0x20#8, 0x00#8, 0x00#8] =
      .incomplete (.operands 0x0E#8 1 [0x00#8, 0x00#8, 0x00#8, 0x00#8, 0x50#8, 0x00#8, 0x20#8, 0x00#8, 0x00#8]) := by decide
theorem test_decode_bitmap (a : List Byte) (h : a.length = 504) : decode (0x04#8 :: a) = .packet (.bitmap a) [] := by
  have := feed_payloadN 0x04#8 [] [] a [] 503 h
  rw [List.append_nil, List.nil_append] at this
  exact this

/-! ### Framebuffer commands (95_test_vectors.md 2.1, 2.2) -/

/-- V140. -/
theorem test_nop_keeps_status : push { State.reset with status := 2#8 } [0x00#8] = { State.reset with status := 2#8 } := by
  decide
/-- V20: the last byte is zero, the cursor stays. -/
theorem test_clear :
    Memory.lookup (push { withFb [(503, 0xFF#8)] with cx := 12#7, cp := 3#3 } [0x02#8]).fb 503 = some 0x00#8 ∧
    (push { withFb [(503, 0xFF#8)] with cx := 12#7, cp := 3#3 } [0x02#8]).cx = 12#7 := by
  set_option maxRecDepth 4000 in decide
/-- V1. -/
theorem test_setpx_bit : (push (withFb [(178, 0x00#8)]) [0x05#8, 0x0A#8, 0x13#8]).fb = [(178, 0x08#8)] := by decide
/-- V9: the byte that `84 + 84 * 0` would address is untouched. -/
theorem test_setpx_oob :
    push (withFb [(84, 0x00#8)]) [0x05#8, 0x54#8, 0x00#8] = { withFb [(84, 0x00#8)] with status := 2#8 } := by decide
/-- V2. -/
theorem test_clrpx_bit : (push (withFb [(178, 0xFF#8)]) [0x06#8, 0x0A#8, 0x13#8]).fb = [(178, 0xF7#8)] := by decide
/-- T10. -/
theorem test_clrpx_oob : (push State.reset [0x06#8, 0x00#8, 0x30#8]).status = 2#8 := by decide
/-- V6. -/
theorem test_rdpix_set : (push (withFb [(503, 0x80#8)]) [0x10#8, 0x53#8, 0x2F#8]).result = 1#8 := by decide
/-- V8. -/
theorem test_rdpix_oob_keeps_result :
    push { State.reset with result := 7#8 } [0x10#8, 0x54#8, 0x00#8] = { State.reset with result := 7#8, status := 2#8 } := by
  decide
/-- V34. -/
theorem test_rdbyte : (push (withFb [(178, 0x08#8)]) [0x11#8, 0xB2#8, 0x00#8]).result = 0x08#8 := by decide
/-- V36. -/
theorem test_rdbyte_oob : (push { State.reset with result := 7#8 } [0x11#8, 0xF8#8, 0x01#8]).result = 7#8 := by decide
/-- V22: the run crosses from page 0 into page 1. -/
theorem test_wrxy_crosses_pages :
    (push State.reset [0x0B#8, 0x52#8, 0x00#8, 0x03#8, 0x00#8, 0xFF#8, 0x81#8, 0xFF#8]).fb =
      [(82, 0xFF#8), (83, 0x81#8), (84, 0xFF#8)] := by decide
/-- V24: nothing is written, not even index 503. -/
theorem test_wrxy_past_the_end :
    push State.reset [0x0B#8, 0x53#8, 0x05#8, 0x02#8, 0x00#8, 0xAA#8, 0xBB#8] = { State.reset with status := 2#8 } := by decide
/-- V28: the origin is checked when `len` is 0 too. -/
theorem test_clrrng_origin_checked : (push State.reset [0x0C#8, 0x54#8, 0x00#8, 0x00#8, 0x00#8]).status = 2#8 := by decide
/-- V31, its first and last bytes. -/
theorem test_clrrng_run :
    ((push (withFb [(247, 0xFF#8), (248, 0xFF#8), (255, 0xFF#8), (256, 0xFF#8)]) [0x0C#8, 0x50#8, 0x02#8, 0x08#8, 0x00#8]).fb.filter
      (fun c => c.1 == 247 || c.1 == 248 || c.1 == 255 || c.1 == 256)) =
      [(247, 0xFF#8), (248, 0x00#8), (255, 0x00#8), (256, 0xFF#8)] := by decide

/-! ### Text (95_test_vectors.md 2.3) -/

/-- V43: the cell straddles the end of a row. -/
theorem test_putc_straddles :
    (push (at' 80#7 0#3) [0x07#8, 0x41#8]).fb =
      [(80, 0x7E#8), (81, 0x11#8), (82, 0x11#8), (83, 0x11#8), (84, 0x7E#8), (85, 0x00#8)] ∧
    (push (at' 80#7 0#3) [0x07#8, 0x41#8]).cx = 0#7 ∧ (push (at' 80#7 0#3) [0x07#8, 0x41#8]).cp = 1#3 := by decide
/-- V44 and V45: the last cell, and one column too far. -/
theorem test_putc_end_of_display :
    (push (at' 78#7 5#3) [0x07#8, 0x41#8]).cend = true ∧ (push (at' 78#7 5#3) [0x07#8, 0x41#8]).cp = 5#3 ∧
    push (at' 79#7 5#3) [0x07#8, 0x41#8] = { at' 79#7 5#3 with status := 2#8 } := by decide
/-- V52: the first failure is kept, the later success does not clear it. -/
theorem test_puts_first_failure :
    (push State.reset [0x08#8, 0x41#8, 0x01#8, 0x42#8, 0x00#8]).status = 2#8 ∧
    (push State.reset [0x08#8, 0x41#8, 0x01#8, 0x42#8, 0x00#8]).cx = 12#7 := by decide
/-- V53. -/
theorem test_puts_empty : push { State.reset with status := 2#8 } [0x08#8, 0x00#8] = State.reset := by decide
/-- V58: PUTCXY ignores the cursor. -/
theorem test_putcxy_past_end :
    push { State.reset with cend := true } [0x09#8, 0x00#8, 0x00#8, 0x44#8] =
      { State.reset with
        cend := true
        fb := [(0, 0x7F#8), (1, 0x41#8), (2, 0x41#8), (3, 0x22#8), (4, 0x1C#8), (5, 0x00#8)] } := by decide
/-- V57. -/
theorem test_putcxy_origin : (push State.reset [0x09#8, 0x54#8, 0x00#8, 0x5A#8]).status = 2#8 := by decide
/-- V62: the temporary cursor wraps and the second cell covers the spill of the first. -/
theorem test_putsxy_wraps :
    push State.reset [0x0A#8, 0x50#8, 0x00#8, 0x41#8, 0x42#8, 0x00#8] =
      withFb [(80, 0x7E#8), (81, 0x11#8), (82, 0x11#8), (83, 0x11#8), (84, 0x7F#8), (85, 0x49#8), (86, 0x49#8), (87, 0x49#8),
        (88, 0x36#8), (89, 0x00#8)] := by decide
/-- V61. -/
theorem test_putsxy_origin :
    push State.reset [0x0A#8, 0x00#8, 0x06#8, 0x41#8, 0x00#8] = { State.reset with status := 2#8 } := by decide
/-- V46. -/
theorem test_gotoxy_corner : push { State.reset with cend := true } [0x03#8, 0x53#8, 0x05#8] = at' 83#7 5#3 := by decide
/-- V47. -/
theorem test_gotoxy_oob : push (at' 7#7 1#3) [0x03#8, 0x54#8, 0x00#8] = { at' 7#7 1#3 with status := 2#8 } := by decide

/-! ### LINE (43_line_rasterizer.md R194; 95_test_vectors.md 2.4) -/

/-- V80. -/
theorem test_line_points : linePoints 0#16 0#16 0x50#16 0x20#16 0#16 = some [(0, 0), (1, 0), (2, 1), (3, 1), (4, 2), (5, 2)] := by
  decide
/-- V97: the subdivided samples along y. -/
theorem test_line_subdivided :
    linePoints 0#16 0#16 0x08#16 0x34#16 5#16 = some [(0, 0), (0, 1), (0, 2), (0, 2), (1, 3)] := by decide
/-- R194, the reversed segment: the same pixels in the opposite order. -/
theorem test_line_reversed :
    linePoints 0x50#16 0x20#16 0#16 0#16 0#16 = some [(5, 2), (4, 2), (3, 1), (2, 1), (1, 0), (0, 0)] := by decide
/-- V101: one sample outside, nothing plotted. -/
theorem test_line_rejected :
    push (withFb [(0, 0x00#8)])
      [0x0E#8, 0x00#8, 0x00#8, 0x00#8, 0x00#8, 0x30#8, 0x00#8, 0xF0#8, 0xFF#8, 0x00#8, 0x00#8] =
      { withFb [(0, 0x00#8)] with status := 2#8 } := by decide
/-- V103: a negative operand that rounds to 0. -/
theorem test_line_commit :
    push (withFb [(0, 0x02#8), (1, 0x00#8), (2, 0x00#8)])
      [0x0E#8, 0x00#8, 0x00#8, 0xF8#8, 0xFF#8, 0x20#8, 0x00#8, 0xF8#8, 0xFF#8, 0x00#8, 0x00#8] =
      { withFb [(0, 0x03#8), (1, 0x01#8), (2, 0x01#8)] with lncnt := 3#16 } := by decide
/-- The rounding function's vectors. -/
theorem test_line_rounding :
    zeroCoord (q16 0x0008#16) = 1 ∧ zeroCoord (q16 0x0007#16) = 0 ∧ zeroCoord (q16 0xFFF8#16) = 0 ∧
    zeroCoord (q16 0xFFF7#16) = -1 ∧ zeroCoord (q16 0xFFE8#16) = -1 ∧ zeroCoord (q16 0x7FFF#16) = 2048 ∧
    zeroCoord (q16 0x8000#16) = -2048 := by decide

/-! ### Transport (95_test_vectors.md 2.5) -/

/-- V120. -/
theorem test_init :
    (push State.reset [0x01#8]).wire =
      [.rstAssert, .rstRelease, .byte false 0x21#8, .byte false 0x14#8, .byte false 0xB1#8, .byte false 0x20#8,
       .byte false 0x0C#8] ∧
    (push State.reset [0x01#8]).readReg 2 = 0x03#8 := by decide
/-- V122. -/
theorem test_init_not_ready :
    push { State.reset with trdy := false, inited := true } [0x01#8] = { State.reset with trdy := false, status := 3#8 } := by
  decide
/-- V124, a bus that stalls after three bytes: the preamble, then the first byte of the framebuffer as data. -/
theorem test_sync_begins :
    (push { withFb [(0, 0x7E#8)] with bus := some 3 } [0x0D#8]).wire =
      [.byte false 0x80#8, .byte false 0x40#8, .byte true 0x7E#8] := by
  set_option maxRecDepth 4000 in decide
/-- R136, the reference pin format: bit 7 first, sampled on the eight rising edges. -/
theorem test_spi_frame :
    ((spiFrame referencePinFormat true 0xC1#8).filter (·.sclk)).map (·.sdin) =
      [true, true, false, false, false, false, false, true] := by decide
/-- U5, another pin format: bit 0 first, SCLK idling high, SCE active high, the bits read on the second edges. -/
theorem test_spi_frame_mode_3 :
    (samplesOf ⟨false, true, true, true, false, 0⟩ (spiFrame ⟨false, true, true, true, false, 0⟩ true 0xC1#8)).map
        (fun p => (p.sclk, p.sdin, p.sce)) =
      [(true, true, true), (true, false, true), (true, false, true), (true, false, true), (true, false, true),
       (true, false, true), (true, true, true), (true, true, true)] := by decide
/-- R136: SCE is low with a byte in flight, high after the command, and each byte of INIT has its pin sequence. -/
theorem test_sce_frames_a_byte :
    (push { State.reset with bus := some 2 } [0x01#8]).sce = false ∧ (push State.reset [0x01#8]).sce = true ∧
    (push State.reset [0x01#8]).pinTrace.map List.length = [18, 18, 18, 18, 18] := by decide

/-- R262: the platform reaches a held engine past a host write that waits; then the command goes on. -/
theorem test_held_engine_hears_the_platform :
    let s : State := { State.reset with bus := some 0, input := pushes [0x01#8, 0x00#8] ++ [.bus none] }
    (after (step s)).busy ≠ none ∧ (after (step (after (step s)))).input = pushes [0x00#8] ∧
    (after (step (after (step (after (step s)))))).status = 0#8 ∧ (after (step (after (step (after (step s)))))).inited = true := by
  decide

/-! ### Framing, the window and reset (95_test_vectors.md 2.6; 10_state.md R20) -/

/-- V141. -/
theorem test_reserved : push State.reset [0x0F#8] = { State.reset with status := 4#8 } := by decide
/-- V145. -/
theorem test_midpkt : (push State.reset [0x05#8, 0x0A#8]).readReg 2 = 0x09#8 := by decide
/-- LNCNTH holds the high byte (10 R19). -/
theorem test_lncnt_bytes :
    ({ State.reset with lncnt := 0x1234#16 } : State).readReg 6 = 0x34#8 ∧
    ({ State.reset with lncnt := 0x1234#16 } : State).readReg 7 = 0x12#8 := by decide

/-! ### Witnesses: for every statement with hypotheses, a state and operands that meet all of them -/

/-- A busy state: a SYNC held at its first byte. -/
def held : State := { State.reset with bus := some 0, busy := some { ops := sendCommands [0x80#8], finish := .sync } }

theorem witness_ErstResetsFromAnyState :
    (({ State.reset with input := [.erst] } : State).input = .erst :: [] ∧
      ({ State.reset with input := [.erst] } : State).busy = none) ∧
    (({ held with input := [.erst, .trdy false] } : State).input = .erst :: [.trdy false] ∧ held.busy ≠ none ∧
      held.bus = some 0) := by decide

theorem witness_EveryOpcodeByteIsOfOneRow :
    (⟨"RDBYTE", 0x11#8, 0xFF#8⟩ : OpcodeRow) ∈ opcodeRows ∧ OpcodeRow.covers ⟨"RDBYTE", 0x11#8, 0xFF#8⟩ 0x11#8 = true ∧
    (⟨"RSVD_12_13", 0x12#8, 0xFE#8⟩ : OpcodeRow) ∈ opcodeRows ∧ OpcodeRow.covers ⟨"RSVD_12_13", 0x12#8, 0xFE#8⟩ 0x13#8 = true := by
  decide

theorem witness_DecodeOfEncodeIsIdentity :
    Instr.wf (.wrxy 0xFF#8 0#8 0#16 []) = true ∧ Instr.wf (.wrxy 0#8 0#8 2#16 [0#8, 1#8]) = true ∧
    Instr.wf (.puts []) = true ∧ Instr.wf (.putsxy 0#8 0#8 [0xFF#8]) = true ∧
    Instr.wf (.bitmap (List.replicate 504 0xAA#8)) = true := by
  refine ⟨by decide, by decide, by decide, by decide, by simp only [Instr.wf, List.length_replicate, beq_self_eq_true]⟩

theorem witness_DecodedPacketIsItsEncoding : decode [0x11#8, 0xF7#8, 0x01#8, 0x00#8] = .packet (.rdbyte 503#16) [0x00#8] := by
  decide

theorem witness_UnterminatedStringKeepsWaiting : strOk [] = true ∧ strOk [0x41#8, 0xFF#8] = true := by decide

theorem witness_StepRunsTheDecodedPacket :
    State.reset.busy = none ∧ State.reset.dec = .idle ∧
    ({ State.reset with input := pushes [0x03#8, 0x0C#8, 0x03#8] ++ [.erst] } : State).input =
      pushes [0x03#8, 0x0C#8, 0x03#8] ++ [.erst] ∧
    decode [0x03#8, 0x0C#8, 0x03#8] = .packet (.gotoxy 12#8 3#8) [] := by decide

theorem witness_PartialPacketChangesOnlyDec :
    ({ State.reset with dec := .operands 0x05#8 2 [], input := pushes [0x0A#8] } : State).busy = none ∧
    (Dec.operands 0x05#8 2 []).feed [0x0A#8] = .incomplete (.operands 0x05#8 1 [0x0A#8]) ∧
    Dec.idle.feed [] = .incomplete .idle := by decide

theorem witness_WritesToOtherOffsetsAreIgnored :
    State.reset.busy = none ∧ (1 : Fin 8) ≠ 0 ∧ (7 : Fin 8) ≠ 0 ∧
    ({ State.reset with input := [.write 7 0xFF#8] } : State).input = .write 7 0xFF#8 :: [] := by decide

theorem witness_BitmapReplacesTheFramebuffer : (List.replicate 504 0xAA#8).length = 504 := by
  simp only [List.length_replicate]

/-- SETPX, CLRPX and RDPIX: each clause at both ends of its range. -/
theorem witness_SetpxSetsOneBit :
    (83 < (84#8).toNat ∨ 47 < (0#8).toNat) ∧ (83 < (0#8).toNat ∨ 47 < (48#8).toNat) ∧ (83 < (255#8).toNat ∨ 47 < (47#8).toNat) ∧
    ((83#8).toNat ≤ 83 ∧ (47#8).toNat ≤ 47) ∧ ((0#8).toNat ≤ 83 ∧ (0#8).toNat ≤ 47) := by decide
theorem witness_ClrpxClearsOneBit :
    (83 < (84#8).toNat ∨ 47 < (47#8).toNat) ∧ (83 < (83#8).toNat ∨ 47 < (48#8).toNat) ∧
    ((83#8).toNat ≤ 83 ∧ (47#8).toNat ≤ 47) := by decide
theorem witness_RdpixReadsOneBit :
    (83 < (84#8).toNat ∨ 47 < (47#8).toNat) ∧ (83 < (83#8).toNat ∨ 47 < (48#8).toNat) ∧
    ((83#8).toNat ≤ 83 ∧ (47#8).toNat ≤ 47) := by decide
theorem witness_PixelSetAndClearAreInverse : (83#8).toNat ≤ 83 ∧ (47#8).toNat ≤ 47 := by decide
theorem witness_PixelWritesCommute :
    ((Instr.setpx 1#8 0#8 = .setpx 1#8 0#8 ∨ Instr.setpx 1#8 0#8 = .clrpx 1#8 0#8) ∧
      (Instr.clrpx 1#8 7#8 = .setpx 1#8 7#8 ∨ Instr.clrpx 1#8 7#8 = .clrpx 1#8 7#8)) ∧ ((1#8, 0#8) : Byte × Byte) ≠ (1#8, 7#8) := by
  decide

theorem witness_WrxyWritesTheWholeRunOrNothing :
    ([0xAA#8].length = (1#16).toNat ∧ 83 < (84#8).toNat) ∧ ([0xAA#8].length = (1#16).toNat ∧ 5 < (6#8).toNat) ∧
    ([0xAA#8, 0xBB#8].length = (2#16).toNat ∧ 504 < (83#8).toNat + 84 * (5#8).toNat + (2#16).toNat) ∧
    ([0xAA#8].length = (1#16).toNat ∧ (83#8).toNat ≤ 83 ∧ (5#8).toNat ≤ 5 ∧
      (83#8).toNat + 84 * (5#8).toNat + (1#16).toNat ≤ 504) ∧
    (([] : List Byte).length = (0#16).toNat ∧ (83#8).toNat + 84 * (5#8).toNat + (0#16).toNat ≤ 504) := by decide
theorem witness_ClrrngZeroesTheWholeRunOrNothing :
    83 < (84#8).toNat ∧ 5 < (6#8).toNat ∧ 504 < (0#8).toNat + 84 * (0#8).toNat + (505#16).toNat ∧
    ((0#8).toNat ≤ 83 ∧ (0#8).toNat ≤ 5 ∧ (0#8).toNat + 84 * (0#8).toNat + (504#16).toNat ≤ 504) := by decide
theorem witness_RdbyteReadsOneByte : 503 < (504#16).toNat ∧ (503#16).toNat ≤ 503 := by decide

theorem witness_GotoxyMovesTheCursor :
    (({ State.reset with cend := true } : State).cend = true ∧ ∀ x page, Instr.puts [0x41#8] ≠ .gotoxy x page) ∧
    (83 < (84#8).toNat ∨ 5 < (0#8).toNat) ∧ (83 < (0#8).toNat ∨ 5 < (6#8).toNat) ∧ ((83#8).toNat ≤ 83 ∧ (5#8).toNat ≤ 5) :=
  ⟨⟨rfl, by simp⟩, by decide⟩
/-- The reference parameters are well-formed, and entry 33 of the font is the glyph of 'A' (R153's example). -/
theorem test_reference_font :
    State.reset.params.wf ∧
    State.reset.params.font[(0x41#8).toNat - State.reset.params.fontFirst.toNat]? = some ⟨0x7E#8, 0x11#8, 0x11#8, 0x11#8, 0x7E#8⟩ := by
  decide
/-- PUTC: past the end, either side of the font, the cell that passes index 503; the last cell of the display, with a font
that is well-formed. -/
theorem witness_PutcBlitsAndAdvances :
    ({ State.reset with cend := true } : State).cend = true ∧ (0x1F#8).toNat < State.reset.params.fontFirst.toNat ∧
    State.reset.params.fontLast.toNat < (0x80#8).toNat ∧ 504 < (at' 79#7 5#3).cx.toNat + 84 * (at' 79#7 5#3).cp.toNat + 6 ∧
    ((at' 78#7 5#3).cend = false ∧ (at' 78#7 5#3).params.fontFirst.toNat ≤ (0x41#8).toNat ∧
      (0x41#8).toNat ≤ (at' 78#7 5#3).params.fontLast.toNat ∧
      (at' 78#7 5#3).cx.toNat + 84 * (at' 78#7 5#3).cp.toNat + 6 ≤ 504 ∧ (at' 78#7 5#3).params.wf) := by decide
theorem witness_PutcxyBlitsWithoutTheCursor :
    83 < (84#8).toNat ∧ 5 < (6#8).toNat ∧ (0x1F#8).toNat < State.reset.params.fontFirst.toNat ∧
    State.reset.params.fontLast.toNat < (0x80#8).toNat ∧ 504 < (79#8).toNat + 84 * (5#8).toNat + 6 ∧
    ((78#8).toNat ≤ 83 ∧ (5#8).toNat ≤ 5 ∧ State.reset.params.fontFirst.toNat ≤ (0x20#8).toNat ∧
      (0x7F#8).toNat ≤ State.reset.params.fontLast.toNat ∧ (78#8).toNat + 84 * (5#8).toNat + 6 ≤ 504 ∧ State.reset.params.wf) := by
  decide
theorem witness_PutsxyIsPutsAtATemporaryCursor :
    (83 < (84#8).toNat ∨ 5 < (0#8).toNat) ∧ (83 < (0#8).toNat ∨ 5 < (6#8).toNat) ∧ ((83#8).toNat ≤ 83 ∧ (5#8).toNat ≤ 5) := by
  decide
theorem witness_DisplayHoldsEightyFourCells :
    State.reset.cx = 0#7 ∧ State.reset.cp = 0#3 ∧ State.reset.cend = false ∧
    (∀ c ∈ List.replicate 14 0x41#8, State.reset.params.fontFirst.toNat ≤ c.toNat ∧ c.toNat ≤ State.reset.params.fontLast.toNat) ∧
    (List.replicate 14 0x41#8).length = 14 ∧
    (∀ c ∈ List.replicate 84 0x41#8, State.reset.params.fontFirst.toNat ≤ c.toNat ∧ c.toNat ≤ State.reset.params.fontLast.toNat) ∧
    (List.replicate 84 0x41#8).length = 84 ∧ (List.replicate 84 0x41#8)[83]? = some 0x41#8 ∧ State.reset.params.wf := by decide

/-- LINE: each clause in case Z at the edge of the panel, in cases V and H, in case G along x and y, natural and subdivided. -/
theorem witness_LinePlotsTheRationalSamples :
    (∀ p ∈ samplePoints (coord 0x530#16) (coord 0x2F0#16) (coord 0x530#16) (coord 0x2F0#16) 9,
      0 ≤ p.1 ∧ p.1 ≤ 83 ∧ 0 ≤ p.2 ∧ p.2 ≤ 47) ∧
    (∀ p ∈ samplePoints (coord 0x0A0#16) (coord 0#16) (coord 0x0A0#16) (coord 0x2F0#16) 1,
      0 ≤ p.1 ∧ p.1 ≤ 83 ∧ 0 ≤ p.2 ∧ p.2 ≤ 47) ∧
    (∀ p ∈ samplePoints (coord 0#16) (coord 0xFFF8#16) (coord 0x020#16) (coord 0xFFF8#16) 20,
      0 ≤ p.1 ∧ p.1 ≤ 83 ∧ 0 ≤ p.2 ∧ p.2 ≤ 47) ∧
    (∀ p ∈ samplePoints (coord 0#16) (coord 0#16) (coord 0x050#16) (coord 0x020#16) 0,
      0 ≤ p.1 ∧ p.1 ≤ 83 ∧ 0 ≤ p.2 ∧ p.2 ≤ 47) ∧
    (∀ p ∈ samplePoints (coord 0#16) (coord 0#16) (coord 0x008#16) (coord 0x034#16) 5,
      0 ≤ p.1 ∧ p.1 ≤ 83 ∧ 0 ≤ p.2 ∧ p.2 ≤ 47) ∧
    (∃ p ∈ samplePoints (coord 0#16) (coord 0#16) (coord 0x030#16) (coord 0xFFF0#16) 0,
      p.1 < 0 ∨ 83 < p.1 ∨ p.2 < 0 ∨ 47 < p.2) ∧
    (∃ p ∈ samplePoints (coord 0x530#16) (coord 0#16) (coord 0x538#16) (coord 0#16) 2,
      p.1 < 0 ∨ 83 < p.1 ∨ p.2 < 0 ∨ 47 < p.2) ∧
    (∃ p ∈ samplePoints (coord 0x540#16) (coord 0x0A0#16) (coord 0x540#16) (coord 0x0A0#16) 0,
      p.1 < 0 ∨ 83 < p.1 ∨ p.2 < 0 ∨ 47 < p.2) := by decide +kernel
theorem witness_LncntMeetsMindots :
    (push (withFb [(503, 0x00#8)])
      [0x0E#8, 0x30#8, 0x05#8, 0xF0#8, 0x02#8, 0x30#8, 0x05#8, 0xF0#8, 0x02#8, 0x09#8, 0x00#8]).status = 0#8 ∧
    (after (exec (.line 0#16 0#16 0x20#16 0#16 3#16) (withFb [(0, 0#8), (1, 0#8), (2, 0#8)]))).status = 0#8 ∧
    (after (exec (.line 0#16 0#16 0x20#16 0#16 4#16) (withFb [(0, 0#8), (1, 0#8), (2, 0#8)]))).status = 0#8 := by decide
theorem witness_RejectedLineIsANoOp :
    (after (exec (.line 0x540#16 0#16 0x540#16 0#16 0#16) State.reset)).status ≠ 0#8 := by decide
theorem witness_NaturalSamplesStepByOnePixel : (-1 : Int) ≠ 0 ∧ (16 : Int) ≠ 0 := by decide
theorem witness_ReversedSegmentPlotsTheSamePixels :
    rawLength 0#16 0#16 0x50#16 0x20#16 % 16 = 0 ∧ rawLength 8#16 8#16 8#16 8#16 % 16 = 0 ∧
    rawLength 8#16 8#16 0x38#16 0x11#16 % 16 = 0 ∧ (6#16).toNat ≤ rawLength 0#16 0#16 0x50#16 0x20#16 / 16 + 1 ∧
    (1#16).toNat ≤ rawLength 8#16 8#16 8#16 8#16 / 16 + 1 := by decide

theorem witness_InitPulsesResetAndSendsTheSequence :
    ({ State.reset with trdy := false } : State).trdy = false ∧ State.reset.trdy = true ∧
    ({ State.reset with bus := some 5 } : State).busCompletes State.reset.params.initSeq.length = true ∧
    State.reset.params.initSeq ≠ [] := by decide
theorem witness_SyncStreamsTheFramebuffer :
    State.reset.busCompletes (State.reset.params.syncPreamble.length + 504) = true ∧
    ({ State.reset with bus := some 506 } : State).busCompletes (State.reset.params.syncPreamble.length + 504) = true := by decide
theorem witness_InitAndSyncDriveThePinFormat :
    ({ State.reset with bus := some 5 } : State).trdy = true ∧ State.reset.params.initSeq ≠ [] ∧
    ({ State.reset with bus := some 5 } : State).busCompletes State.reset.params.initSeq.length = true ∧
    ({ State.reset with bus := some 506 } : State).busCompletes (State.reset.params.syncPreamble.length + 504) = true := by decide
theorem witness_SyncIsAFunctionOfTheFramebuffer :
    (∀ i, i < 504 → State.reset.fbRead i = ({ State.reset with cx := 5#7, inited := true } : State).fbRead i) ∧
    State.reset.params.syncPreamble = ({ State.reset with cx := 5#7, inited := true } : State).params.syncPreamble ∧
    ({ State.reset with cx := 5#7, inited := true } : State).busCompletes (State.reset.params.syncPreamble.length + 504) = true :=
  ⟨fun _ _ => rfl, rfl, rfl⟩
theorem witness_StalledSyncHangs :
    (∀ e ∈ [PortEvent.write 0 0#8], ∃ offset v, e = .write offset v) ∧
    (({ State.reset with bus := some 0 } : State).bus = some 0 ∧ 0 < State.reset.params.syncPreamble.length + 504) ∧
    (({ State.reset with bus := some 505, input := [.write 0 0#8] } : State).bus = some 505 ∧
      505 < State.reset.params.syncPreamble.length + 504) :=
  ⟨by simp, by decide⟩
theorem witness_StalledInitHangs :
    (State.reset.trdy = true ∧ ({ State.reset with bus := some 0 } : State).bus = some 0 ∧
      0 < State.reset.params.initSeq.length) ∧
    (({ State.reset with bus := some 4 } : State).bus = some 4 ∧ 4 < State.reset.params.initSeq.length) := by decide
theorem witness_StallOnlyDelays :
    State.reset.busy = none ∧ (after (exec .init { State.reset with bus := some 2 })).busy ≠ none ∧
    (after (exec .init { State.reset with bus := some 5 })).busy = none := by decide

theorem witness_ReservedByteIsBadCmd :
    0x12 ≤ (0x12#8).toNat ∧ 0x12 ≤ (0xFF#8).toNat ∧ isReserved .rsvd0F = true ∧ isReserved (.rsvd80 0x7F#7) = true := by decide
theorem witness_OnlyInitAndSyncReachTheWire : Instr.clear ≠ .init ∧ Instr.clear ≠ .sync := by decide
theorem witness_OnlyThreeCommandsMoveTheCursor :
    ((∀ x page, Instr.putcxy 0#8 0#8 0x44#8 ≠ .gotoxy x page) ∧ (∀ c, Instr.putcxy 0#8 0#8 0x44#8 ≠ .putc c) ∧
      (∀ str, Instr.putcxy 0#8 0#8 0x44#8 ≠ .puts str)) ∧ ∃ t, exec (.putcxy 0#8 0#8 0x44#8) State.reset = .next t :=
  ⟨⟨by simp, by simp, by simp⟩, _, rfl⟩
theorem witness_OnlyMutatorsWriteTheFramebuffer :
    (∃ idx, Instr.rdbyte 0#16 = .rdbyte idx) ∧ ∃ t, exec (.rdbyte 0#16) State.reset = .next t := ⟨⟨_, rfl⟩, _, rfl⟩
theorem witness_RegistersHaveTheirOwnWriters :
    (∃ t, exec .nop State.reset = .next t) ∧ (∀ x y, Instr.nop ≠ .rdpix x y) ∧ (∀ idx, Instr.nop ≠ .rdbyte idx) ∧
    (∀ x0 y0 x1 y1 n, Instr.nop ≠ .line x0 y0 x1 y1 n) ∧ Instr.nop ≠ .init :=
  ⟨⟨_, rfl⟩, by simp, by simp, by simp, by simp⟩
theorem witness_FailedCommandsChangeNothing :
    (∀ str, Instr.rdbyte 504#16 ≠ .puts str) ∧ (∀ x page str, Instr.rdbyte 504#16 ≠ .putsxy x page str) ∧
    Instr.rdbyte 504#16 ≠ .nop ∧ Instr.rdbyte 504#16 ≠ .init ∧ Instr.rdbyte 504#16 ≠ .sync ∧
    (after (exec (.rdbyte 504#16) State.reset)).status ≠ 0#8 :=
  ⟨by simp, by simp, by simp, by simp, by simp, by decide⟩
theorem witness_WireTraceOnlyGrows : ∃ t, step { State.reset with input := pushes [0x01#8] } = .next t := ⟨_, rfl⟩
/-- A state that meets the invariant and is not the reset state: past the end, in mid-packet, with bytes known. -/
theorem witness_StepKeepsInvariant :
    let s : State := { withFb [(0, 0xFF#8), (503, 0x01#8)] with
      cx := 0#7, cp := 5#3, cend := true, status := 2#8, dec := .payloadZ 0x0A#8 [1#8, 2#8] [0x41#8], input := pushes [0x00#8] }
    s.Inv ∧ ∃ t, step s = .next t := by
  refine ⟨?_, _, rfl⟩
  unfold State.Inv
  decide
/-- The held side of the invariant: an INIT that a stalled bus holds up after two bytes, and the step that finds it still so. -/
theorem witness_StepKeepsInvariant_held :
    let s := after (exec .init { State.reset with bus := some 2 })
    s.busy ≠ none ∧ s.Inv ∧ ∃ t, step s = .next t := by
  refine ⟨by decide, ?_, _, rfl⟩
  unfold State.Inv
  decide

end Sys2Proof.Tests
end

section
/-! SUPPORT. The rules of 10_state.md that hold of the whole machine: what an instruction and a step can do, each said once, and the
statements that follow: who writes what, what only grows, the invariant, the command port and the register window. -/

namespace Sys2Proof.Machine

/-! ### What an instruction can do -/

/-- The eleven commands that write the framebuffer (10 R10). -/
def isMutator : Instr → Bool
  | .clear | .bitmap _ | .setpx _ _ | .clrpx _ _ | .putc _ | .puts _ | .putcxy _ _ _ | .putsxy _ _ _ => true
  | .wrxy _ _ _ _ | .clrrng _ _ _ | .line _ _ _ _ _ => true
  | _ => false

/-- Everything an instruction can do to a state: the updates that `exec` is made of, one constructor each (`exec_effect`). The
bytes read and the memory stored are left open, for the rules of the whole machine ask only for the form of the memory. -/
inductive Effect (s : State) : Instr → State → Prop
  | nop : Effect s .nop s
  | refuse {i : Instr} {st : Status} (h : st = .oob ∨ st = .badCmd) : Effect s i (s.raise st)
  | store {i : Instr} {m : Memory} (hi : isMutator i = true) (hm : Memory.wf s.fb → Memory.wf m) : Effect s i (s.setFb m).pass
  | readPixel {x y v : Byte} : Effect s (.rdpix x y) { s with result := v }.pass
  | readByte {idx : Half} {v : Byte} : Effect s (.rdbyte idx) { s with result := v }.pass
  | rejectLine {x0 y0 x1 y1 mindots : Half} : Effect s (.line x0 y0 x1 y1 mindots) ((s.setLncnt 0).raise .oob)
  | plotLine {x0 y0 x1 y1 mindots : Half} {m : Memory} {n : Nat} (hm : Memory.wf s.fb → Memory.wf m) :
    Effect s (.line x0 y0 x1 y1 mindots) ((s.setFb m).setLncnt n).pass
  | moveCursor {x page : Byte} (hx : x.toNat ≤ 83) (hp : page.toNat ≤ 5) :
    Effect s (.gotoxy x page) (s.setCursor ⟨x.toNat, page.toNat, false⟩).pass
  | writeAtCursor {i : Instr} {str : List Byte} (hi : i = .puts str ∨ ∃ c, i = .putc c) :
    Effect s i ((s.setCursor (s.cursorPen str).cur).takeInk (s.cursorPen str))
  | writeAtPlace {x page : Byte} {str : List Byte} (hx : x.toNat ≤ 83) (hp : page.toNat ≤ 5) :
    Effect s (.putsxy x page str) (s.takeInk ((s.penAt ⟨x.toNat, page.toNat, false⟩).putAll s.params str))
  | initNotReady : Effect s .init ({ s with inited := false }.raise .fail)
  | initRun : Effect s .init (runOps .init (initOps s.params) s)
  | syncRun : Effect s .sync (runOps .sync (syncOps s) s)

theorem storeRun_effect {i : Instr} (hi : isMutator i = true) (x page : Byte) (len : Nat) (bytes : List Byte) (s : State) :
    Effect s i (storeRun x page len bytes s) := by
  rcases storeRun_cases x page len bytes s with ⟨_, h⟩ | ⟨_, _, _, h⟩
  · exact h ▸ .refuse (.inl rfl)
  · exact h ▸ .store hi (Memory.writeRun_wf _ _)

/-- Every instruction answers a next state, and that state is one of its effects (60 R228). -/
theorem exec_effect (i : Instr) (s : State) : ∃ t, exec i s = .next t ∧ Effect s i t := by
  cases i with
  | nop => exact ⟨_, rfl, .nop⟩
  | init =>
    refine ⟨_, rfl, ?_⟩
    split
    · exact .initRun
    · exact .initNotReady
  | clear => exact ⟨_, rfl, .store rfl (Memory.writeRun_wf _ _)⟩
  | bitmap payload => exact ⟨_, rfl, .store rfl (Memory.writeRun_wf _ _)⟩
  | gotoxy x page =>
    refine ⟨_, rfl, ?_⟩
    split
    case isTrue h =>
      obtain ⟨hx, hp⟩ : x.toNat ≤ 83 ∧ page.toNat ≤ 5 := by simpa using h
      exact .moveCursor hx hp
    case isFalse => exact .refuse (.inl rfl)
  | setpx x y =>
    refine ⟨_, rfl, ?_⟩
    split
    · exact .store rfl (Memory.setPixel_wf _ _ _)
    · exact .refuse (.inl rfl)
  | clrpx x y =>
    refine ⟨_, rfl, ?_⟩
    split
    · exact .store rfl (Memory.clearPixel_wf _ _ _)
    · exact .refuse (.inl rfl)
  | putc c => exact ⟨_, rfl, .writeAtCursor (.inr ⟨c, rfl⟩)⟩
  | puts str => exact ⟨_, rfl, .writeAtCursor (.inl rfl)⟩
  | putcxy x page c =>
    refine ⟨_, rfl, ?_⟩
    split
    · rcases glyphAt_cases s.params x.toNat page.toNat c s.fb with ⟨_, h⟩ | ⟨_, _, _, h⟩ <;> rw [h]
      · exact .refuse (.inl rfl)
      · exact .store rfl (Memory.writeRun_wf _ _)
    · exact .refuse (.inl rfl)
  | putsxy x page str =>
    refine ⟨_, rfl, ?_⟩
    split
    case isTrue h =>
      obtain ⟨hx, hp⟩ : x.toNat ≤ 83 ∧ page.toNat ≤ 5 := by simpa using h
      exact .writeAtPlace hx hp
    case isFalse => exact .refuse (.inl rfl)
  | wrxy x page len payload => exact ⟨_, rfl, storeRun_effect rfl x page _ payload s⟩
  | clrrng x page len => exact ⟨_, rfl, storeRun_effect rfl x page _ _ s⟩
  | sync => exact ⟨_, rfl, .syncRun⟩
  | line x0 y0 x1 y1 mindots =>
    obtain ⟨ps, _, ⟨_, h⟩ | ⟨_, h⟩⟩ := execLine_cases x0 y0 x1 y1 mindots s
    · exact ⟨_, h, .rejectLine⟩
    · exact ⟨_, h, .plotLine (plot_wf _ ps)⟩
  | rdpix x y =>
    refine ⟨_, rfl, ?_⟩
    split
    · exact .readPixel
    · exact .refuse (.inl rfl)
  | rdbyte idx =>
    refine ⟨_, rfl, ?_⟩
    split
    · exact .readByte
    · exact .refuse (.inl rfl)
  | rsvd0F => exact ⟨_, rfl, .refuse (.inr rfl)⟩
  | rsvd12 low => exact ⟨_, rfl, .refuse (.inr rfl)⟩
  | rsvd14 low => exact ⟨_, rfl, .refuse (.inr rfl)⟩
  | rsvd18 low => exact ⟨_, rfl, .refuse (.inr rfl)⟩
  | rsvd20 low => exact ⟨_, rfl, .refuse (.inr rfl)⟩
  | rsvd40 low => exact ⟨_, rfl, .refuse (.inr rfl)⟩
  | rsvd80 low => exact ⟨_, rfl, .refuse (.inr rfl)⟩

theorem effect_of_exec {i : Instr} {s t : State} (h : exec i s = .next t) : Effect s i t := by
  obtain ⟨u, hu, he⟩ := exec_effect i s
  rw [hu] at h
  cases h
  exact he

/-! ### What an instruction leaves unchanged -/

section
variable {i : Instr} {s t : State}

theorem Effect.fb_of_not_mutator (he : Effect s i t) (hi : isMutator i = false) : t.fb = s.fb ∧ t.fbEra = s.fbEra := by
  cases he with
  | nop | refuse | readPixel | readByte | moveCursor | initNotReady => exact ⟨rfl, rfl⟩
  | initRun | syncRun => simp
  | store hm => simp [hm] at hi
  | rejectLine | plotLine | writeAtPlace => simp [isMutator] at hi
  | writeAtCursor h => rcases h with rfl | ⟨c, rfl⟩ <;> simp [isMutator] at hi

theorem Effect.result_of_not_read (he : Effect s i t) (hp : ∀ x y, i ≠ .rdpix x y) (hb : ∀ idx, i ≠ .rdbyte idx) :
    t.result = s.result := by
  cases he with
  | readPixel => exact absurd rfl (hp _ _)
  | readByte => exact absurd rfl (hb _)
  | initRun | syncRun => simp
  | nop | refuse | store | rejectLine | plotLine | moveCursor | writeAtCursor | writeAtPlace | initNotReady => rfl

theorem Effect.lncnt_of_not_line (he : Effect s i t) (hl : ∀ x0 y0 x1 y1 mindots, i ≠ .line x0 y0 x1 y1 mindots) :
    t.lncnt = s.lncnt := by
  cases he with
  | rejectLine | plotLine => exact absurd rfl (hl _ _ _ _ _)
  | initRun | syncRun => simp
  | nop | refuse | store | readPixel | readByte | moveCursor | writeAtCursor | writeAtPlace | initNotReady => rfl

/-- Only the last lines of INIT write INITED (41 R138). -/
theorem runOps_sync_inited (ops : List MicroOp) (s : State) : (runOps .sync ops s).inited = s.inited :=
  runOps_keeps .sync ops s (·.inited) (fun _ => rfl) (fun _ _ _ => rfl) (fun _ _ _ _ => rfl) (fun _ => rfl)

theorem Effect.inited_of_not_init (he : Effect s i t) (hi : i ≠ .init) : t.inited = s.inited := by
  cases he with
  | initNotReady | initRun => exact absurd rfl hi
  | syncRun => exact runOps_sync_inited _ s
  | nop | refuse | store | readPixel | readByte | rejectLine | plotLine | moveCursor | writeAtCursor | writeAtPlace => rfl

/-- No instruction writes the parameters, TRDY, DEC or the events to come (10 R12, R25, R28). -/
theorem Effect.context (he : Effect s i t) : t.params = s.params ∧ t.trdy = s.trdy ∧ t.dec = s.dec ∧ t.input = s.input := by
  cases he with
  | initRun | syncRun => simp
  | nop | refuse | store | readPixel | readByte | rejectLine | plotLine | moveCursor | writeAtCursor | writeAtPlace
  | initNotReady => exact ⟨rfl, rfl, rfl, rfl⟩

end

theorem not_isMutator_of_isReserved {i : Instr} (h : isReserved i = true) : isMutator i = false := by
  cases i with
  | rsvd0F | rsvd12 | rsvd14 | rsvd18 | rsvd20 | rsvd40 | rsvd80 => rfl
  | _ => cases h

/-- Settles O51: an effect on the framebuffer is a mutator's, and none of these instructions is one. -/
theorem onlyMutatorsWriteTheFramebuffer : Obligations.OnlyMutatorsWriteTheFramebuffer := by
  intro i s t hi h
  refine (effect_of_exec h).fb_of_not_mutator ?_
  rcases hi with rfl | rfl | rfl | ⟨x, page, rfl⟩ | ⟨x, y, rfl⟩ | ⟨idx, rfl⟩ | hr
  case inr.inr.inr.inr.inr.inr => exact not_isMutator_of_isReserved hr
  all_goals rfl

/-- Settles O52, one register at a time from the effects of an instruction. -/
theorem registersHaveTheirOwnWriters : Obligations.RegistersHaveTheirOwnWriters := by
  intro i s t h
  have he := effect_of_exec h
  exact ⟨he.result_of_not_read, he.lncnt_of_not_line, he.inited_of_not_init, he.context⟩

/-! ### What a step can do -/

/-- What taking events in changes: DEC, which stays among the decoder's states and moves only with no command held up, the two
inputs and the events to come (10 R12, R21, R25, R26). -/
inductive Listened (s : State) : State → Prop
  | intro (d : Dec) (trdy : Bool) (bus : Option Nat) (input : List PortEvent) (hd : decOk s.dec = true → decOk d = true)
    (hb : s.busy ≠ none → d = s.dec) : Listened s { s with dec := d, trdy := trdy, bus := bus, input := input }

theorem Listened.refl (s : State) : Listened s s := .intro s.dec s.trdy s.bus s.input id fun _ => rfl

theorem Listened.trans {s u v : State} (h₁ : Listened s u) (h₂ : Listened u v) : Listened s v := by
  obtain ⟨d, trdy, bus, input, hd, hb⟩ := h₁
  obtain ⟨d', trdy', bus', input', hd', hb'⟩ := h₂
  exact .intro d' trdy' bus' input' (fun h => hd' (hd h)) fun h => (hb' h).trans (hb h)

/-- Everything a step can end in once the engine has listened: wait, reset, or run the instruction of a complete packet. -/
def EndsIn (u t : State) : Prop :=
  t = u ∨ t = u.engineReset ∨ (u.busy = none ∧ u.dec = .idle ∧ ∃ i, exec i u = .next t)

theorem decOk_of_push {d d' : Dec} {b : Byte} (hp : d.push b = .more d') (h : decOk d = true) : decOk d' = true := by
  rcases push_ok d b h with ⟨i, hi⟩ | ⟨d'', hd, hok⟩
  · simp [hi] at hp
  · obtain rfl : d'' = d' := by simpa [hd] using hp
    exact hok

theorem takeInput_cases {es : List PortEvent} {s t : State} (hs : s.busy = none) (h : takeInput es s = .next t) :
    ∃ u, Listened s u ∧ EndsIn u t := by
  induction es generalizing s with
  | nil =>
    cases h
    exact ⟨_, .intro s.dec s.trdy s.bus [] id fun _ => rfl, .inl rfl⟩
  | cons e es ih =>
    cases e with
    | write offset v =>
      rw [takeInput] at h
      split at h
      · rcases hp : s.dec.push v with d | i <;> rw [hp] at h
        · obtain ⟨u, hu, hend⟩ := ih (s := { s with dec := d }) hs h
          exact ⟨u, .trans (.intro d s.trdy s.bus s.input (decOk_of_push hp) (absurd hs)) hu, hend⟩
        · exact ⟨_, .intro .idle s.trdy s.bus es (fun _ => rfl) (absurd hs), .inr (.inr ⟨hs, rfl, i, h⟩)⟩
      · exact ih hs h
    | trdy level =>
      obtain ⟨u, hu, hend⟩ := ih (s := { s with trdy := level }) hs h
      exact ⟨u, .trans (.intro s.dec level s.bus s.input id fun _ => rfl) hu, hend⟩
    | bus bytes =>
      obtain ⟨u, hu, hend⟩ := ih (s := { s with bus := bytes }) hs h
      exact ⟨u, .trans (.intro s.dec s.trdy bytes s.input id fun _ => rfl) hu, hend⟩
    | erst =>
      cases h
      exact ⟨_, .intro s.dec s.trdy s.bus es id fun _ => rfl, .inr (.inl rfl)⟩

/-- Everything a step can do: listen and end in one of three ways, or go on with the command that the bus held up, where the bus
completes a byte again (70 R262). -/
theorem step_cases {s t : State} (h : step s = .next t) :
    (∃ u, Listened s u ∧ EndsIn u t) ∨ ∃ tr, s.busy = some tr ∧ s.byteDone = true ∧ t = s.resume tr := by
  cases hb : s.busy with
  | none => exact .inl (takeInput_cases hb (step_idle hb ▸ h))
  | some tr =>
    rw [step_held hb, heldStep] at h
    cases h
    split
    · exact .inr ⟨tr, rfl, ‹_›, rfl⟩
    · refine .inl ?_
      rcases heldInput_cases [] s.input s with h | ⟨level, rest, h⟩ | ⟨bytes, rest, h⟩ | ⟨rest, h⟩ <;> rw [h]
      · exact ⟨s, .refl s, .inl rfl⟩
      · exact ⟨_, .intro s.dec level s.bus rest id fun _ => rfl, .inl rfl⟩
      · exact ⟨_, .intro s.dec s.trdy bytes rest id fun _ => rfl, .inl rfl⟩
      · exact ⟨_, .intro s.dec s.trdy s.bus rest id fun _ => rfl, .inr (.inl rfl)⟩

/-! ### The traces only grow (10 R27) -/

/-- Both traces of a state begin with those of an earlier one. -/
def TracesGrow (s t : State) : Prop := s.wire <+: t.wire ∧ s.pinTrace <+: t.pinTrace

theorem TracesGrow.refl (s : State) : TracesGrow s s := ⟨List.prefix_rfl, List.prefix_rfl⟩

theorem TracesGrow.trans {s t u : State} (h₁ : TracesGrow s t) (h₂ : TracesGrow t u) : TracesGrow s u :=
  ⟨h₁.1.trans h₂.1, h₁.2.trans h₂.2⟩

theorem runOps_tracesGrow (f : Finish) (ops : List MicroOp) (s : State) : TracesGrow s (runOps f ops s) := by
  induction ops generalizing s with
  | nil => cases f <;> exact .refl s
  | cons op ops ih =>
    cases op with
    | resetPulse => exact .trans (t := s.resetPulse) ⟨List.prefix_append _ _, List.prefix_rfl⟩ (ih _)
    | send dc v =>
      unfold runOps
      split
      · exact .trans (t := s.sendByte dc v) ⟨List.prefix_append _ _, List.prefix_append _ _⟩ (ih _)
      · exact .refl s

theorem Effect.tracesGrow {i : Instr} {s t : State} (he : Effect s i t) : TracesGrow s t := by
  cases he with
  | initRun | syncRun => exact runOps_tracesGrow _ _ s
  | nop | refuse | store | readPixel | readByte | rejectLine | plotLine | moveCursor | writeAtCursor | writeAtPlace
  | initNotReady => exact .refl s

/-- Settles O54: listening and ERST keep both traces, and only micro-operations append to them. -/
theorem wireTraceOnlyGrows : Obligations.WireTraceOnlyGrows := by
  intro s t h
  rcases step_cases h with ⟨u, hu, hend⟩ | ⟨tr, _, _, rfl⟩
  · have hsu : TracesGrow s u := by
      cases hu
      exact .refl s
    rcases hend with rfl | rfl | ⟨_, _, i, hi⟩
    · exact hsu
    · exact hsu
    · exact hsu.trans (effect_of_exec hi).tracesGrow
  · exact runOps_tracesGrow tr.finish tr.ops { s with busy := none }

/-! ### The parts of the invariant -/

/-- A cursor is legal: in its box, and at (0, 5) when it is past the end (10 R11, 42 R151). -/
def Cursor.Legal (cur : Cursor) : Prop := cur.x ≤ 83 ∧ cur.page ≤ 5 ∧ (cur.past = true → cur.x = 0 ∧ cur.page = 5)

theorem cursorOk_iff (s : State) : cursorOk s = true ↔ s.cursor.Legal := by
  have hx : s.cx = 0#7 ↔ s.cx.toNat = 0 := by simp [BitVec.toNat_eq]
  have hp : s.cp = 5#3 ↔ s.cp.toNat = 5 := by simp [BitVec.toNat_eq]
  cases hc : s.cend <;> simp [cursorOk, Cursor.Legal, State.cursor, hc, hx, hp, and_assoc]

theorem Cursor.Legal.of_setCursor {cur : Cursor} (h : cur.Legal) (s : State) : cursorOk (s.setCursor cur) = true := by
  have hcur : (s.setCursor cur).cursor = cur := by
    obtain ⟨hx, hp, _⟩ := h
    have hx' : cur.x % 128 = cur.x := Nat.mod_eq_of_lt (by omega)
    have hp' : cur.page % 8 = cur.page := Nat.mod_eq_of_lt (by omega)
    simp [State.cursor, hx', hp']
  rwa [cursorOk_iff, hcur]

theorem statusOk_code {st : Status} (h : st ≠ .zeroDiv) : statusOk st.code = true := by
  cases st with
  | zeroDiv => exact absurd rfl h
  | pass | oob | fail | badCmd => rfl

/-- A pen that a string command may end with: the framebuffer canonical, a status that is not ZERO_DIV, the cursor legal. -/
structure Pen.Ok (pen : Pen) : Prop where
  mem : Memory.wf pen.mem
  status : pen.status ≠ .zeroDiv
  cursor : pen.cur.Legal

theorem Pen.Ok.put {pen : Pen} (h : pen.Ok) (p : Params) (c : Byte) : (Pen.put p pen c).Ok := by
  rcases put_cases p pen c with ⟨_, e⟩ | ⟨_, _, _, _, e⟩ <;> rw [e]
  · refine ⟨h.mem, ?_, h.cursor⟩
    unfold Pen.refuse
    split
    · simp
    · exact h.status
  · exact ⟨Memory.writeRun_wf _ _ h.mem, h.status, advance_legal h.cursor.2.1⟩

theorem Pen.Ok.putAll {pen : Pen} (h : pen.Ok) (p : Params) (str : List Byte) : (pen.putAll p str).Ok := by
  induction str generalizing pen with
  | nil => exact h
  | cons c cs ih => exact ih (h.put p c)

theorem State.penAt_ok {s : State} {cur : Cursor} (hfb : Memory.wf s.fb) (hcur : cur.Legal) : (s.penAt cur).Ok :=
  ⟨hfb, by simp [State.penAt], hcur⟩

/-! ### A command that drives the wire keeps the invariant -/

/-- A state in which INIT or SYNC is at work: the invariant with no command held up, SCLK and SCE left out, for they may stand
anywhere in a byte. -/
structure State.Driving (s : State) : Prop where
  fb : Memory.wf s.fb
  cursor : cursorOk s = true
  status : statusOk s.status = true
  rstn : s.rstn = true
  dec : s.dec = .idle
  busy : s.busy = none
  trace : traceOk s = true

theorem State.Driving.sendByte {s : State} (h : s.Driving) (dc : Bool) (v : Byte) : (s.sendByte dc v).Driving where
  fb := h.fb
  cursor := h.cursor
  status := h.status
  rstn := h.rstn
  dec := h.dec
  busy := h.busy
  trace := by
    have := h.trace
    simp_all [traceOk, framesOf_append]

theorem State.Driving.resetPulse {s : State} (h : s.Driving) : s.resetPulse.Driving where
  fb := h.fb
  cursor := h.cursor
  status := h.status
  rstn := rfl
  dec := h.dec
  busy := h.busy
  trace := by
    have := h.trace
    simp_all [traceOk, framesOf_append]

theorem Finish.apply_inv (f : Finish) {s : State} (h : s.Driving) (hclk : s.sclk = s.params.pinFormat.clockIdle) :
    (f.apply s).Inv := by
  have hpins : pinsOk (f.apply s) = true := by cases f <;> simp [Finish.apply, pinsOk, h.rstn, h.busy, hclk]
  have hdec : decOk (f.apply s).dec = true := by cases f <;> simp [Finish.apply, h.dec, decOk]
  have hbusy : busyOk (f.apply s) = true := by cases f <;> simp [Finish.apply, busyOk, h.busy]
  cases f <;> exact ⟨h.fb, h.cursor, rfl, hpins, hdec, hbusy, h.trace⟩

theorem State.Driving.hold_inv {s : State} (h : s.Driving) (f : Finish) (dc : Bool) (v : Byte) (ops : List MicroOp) :
    (s.hold f dc v ops).Inv :=
  ⟨h.fb, h.cursor, h.status, by simp [pinsOk, h.rstn], by simp [h.dec, decOk], by simp [busyOk, h.dec], h.trace⟩

/-- A run ends in the invariant, or is held up in it: SCLK idles at the end because it did at the start or a byte came after. -/
theorem State.Driving.runOps_inv {s : State} (h : s.Driving) (f : Finish) (ops : List MicroOp)
    (hclk : s.sclk = s.params.pinFormat.clockIdle ∨ ∃ dc v rest, ops = .send dc v :: rest) : (runOps f ops s).Inv := by
  induction ops generalizing s with
  | nil => exact f.apply_inv h (hclk.resolve_right (by simp))
  | cons op ops ih =>
    cases op with
    | resetPulse => exact ih h.resetPulse (.inl (hclk.resolve_right (by simp)))
    | send dc v =>
      unfold runOps
      split
      · exact ih (h.sendByte dc v) (.inl rfl)
      · exact h.hold_inv f dc v ops

/-! ### Every step keeps the invariant -/

/-- A state that differs from one of the invariant in the framebuffer, the cursor and the result registers alone. -/
theorem State.Inv.update {s t : State} (h : s.Inv)
    (ht : t = { s with fb := t.fb, cx := t.cx, cp := t.cp, cend := t.cend, status := t.status, result := t.result,
                       lncnt := t.lncnt, inited := t.inited })
    (hfb : Memory.wf t.fb) (hcur : cursorOk t = true) (hst : statusOk t.status = true) : t.Inv := by
  obtain ⟨_, _, _, hpins, hdec, hbusy, htr⟩ := h
  refine ⟨hfb, hcur, hst, ?_⟩
  rw [ht]
  exact ⟨hpins, hdec, hbusy, htr⟩

theorem State.Inv.driving {s : State} (h : s.Inv) (hb : s.busy = none) (hd : s.dec = .idle) :
    s.Driving ∧ s.sclk = s.params.pinFormat.clockIdle := by
  obtain ⟨hfb, hcur, hst, hpins, _, _, htr⟩ := h
  obtain ⟨hrstn, hclk, _⟩ : s.rstn = true ∧ s.sclk = s.params.pinFormat.clockIdle ∧ s.sce = !s.params.pinFormat.sceActive := by
    simpa [pinsOk, hb] using hpins
  exact ⟨⟨hfb, hcur, hst, hrstn, hd, hb, htr⟩, hclk⟩

theorem Effect.inv {i : Instr} {s t : State} (he : Effect s i t) (h : s.Inv) (hb : s.busy = none) (hd : s.dec = .idle) :
    t.Inv := by
  obtain ⟨hdrive, hclk⟩ := h.driving hb hd
  have hfb := hdrive.fb
  have hcur := hdrive.cursor
  cases he with
  | nop => exact h
  | refuse hst => exact h.update rfl hfb hcur (statusOk_code (by rcases hst with rfl | rfl <;> simp))
  | store _ hm => exact h.update rfl (hm hfb) hcur rfl
  | readPixel | readByte => exact h.update rfl hfb hcur rfl
  | rejectLine => exact h.update rfl hfb hcur rfl
  | plotLine hm => exact h.update rfl (hm hfb) hcur rfl
  | moveCursor hx hp => exact h.update rfl hfb (Cursor.Legal.of_setCursor ⟨hx, hp, by simp⟩ s) rfl
  | @writeAtCursor _ str =>
    have hpen : (s.cursorPen str).Ok := (State.penAt_ok hfb ((cursorOk_iff s).mp hcur)).putAll s.params str
    exact h.update rfl hpen.mem (hpen.cursor.of_setCursor s) (statusOk_code hpen.status)
  | @writeAtPlace x page str hx hp =>
    have hpen := (State.penAt_ok hfb (cur := ⟨x.toNat, page.toNat, false⟩) ⟨hx, hp, by simp⟩).putAll s.params str
    exact h.update rfl hpen.mem hcur (statusOk_code hpen.status)
  | initNotReady => exact h.update rfl hfb hcur rfl
  | initRun | syncRun => exact hdrive.runOps_inv _ _ (.inl hclk)

theorem Listened.inv {s u : State} (hu : Listened s u) (h : s.Inv) : u.Inv := by
  obtain ⟨hfb, hcur, hst, hpins, hdec, hbusy, htr⟩ := h
  obtain ⟨d, trdy, bus, input, hd, hb⟩ := hu
  refine ⟨hfb, hcur, hst, hpins, hd hdec, ?_, htr⟩
  cases hs : s.busy with
  | none => simp [busyOk]
  | some tr =>
    obtain rfl : d = s.dec := hb (by simp [hs])
    simpa [busyOk, hs] using hbusy

theorem State.engineReset_inv {s : State} (h : traceOk s = true) : s.engineReset.Inv :=
  ⟨Memory.wf_nil, rfl, rfl, by simp [pinsOk], rfl, rfl, h⟩

/-- A command is held up between packets and at a byte (41 R134, 70 R262). -/
theorem send_of_busyOk {s : State} {tr : Transfer} (h : busyOk s = true) (hb : s.busy = some tr) :
    s.dec = .idle ∧ ∃ v rest, tr.ops = .send s.dc v :: rest := by
  simp only [busyOk, hb, Bool.and_eq_true, beq_iff_eq] at h
  obtain ⟨hd, hops⟩ := h
  split at hops
  case h_1 dc v rest ho => exact ⟨hd, v, rest, by simpa [beq_iff_eq.mp hops] using ho⟩
  case h_2 => cases hops

theorem State.Inv.resume {s : State} {tr : Transfer} (h : s.Inv) (hb : s.busy = some tr) : (s.resume tr).Inv := by
  obtain ⟨hfb, hcur, hst, hpins, _, hbusy, htr⟩ := h
  obtain ⟨hd, v, rest, hops⟩ := send_of_busyOk hbusy hb
  have hdrive : State.Driving { s with busy := none } := ⟨hfb, hcur, hst, (Bool.and_eq_true_iff.mp hpins).1, hd, rfl, htr⟩
  exact hdrive.runOps_inv tr.finish tr.ops (.inr ⟨_, v, rest, hops⟩)

/-- Settles O55: listening, ERST, an instruction and a command going on each keep the invariant. -/
theorem stepKeepsInvariant : Obligations.StepKeepsInvariant := by
  intro s t hs h
  rcases step_cases h with ⟨u, hu, hend⟩ | ⟨tr, hb, _, rfl⟩
  · have hinv := hu.inv hs
    rcases hend with rfl | rfl | ⟨hb, hd, i, hi⟩
    · exact hinv
    · obtain ⟨_, _, _, _, _, _, htr⟩ := hinv
      exact State.engineReset_inv htr
    · exact (effect_of_exec hi).inv hinv hb hd
  · exact hs.resume hb

/-- Settles O4: nothing is written or sent yet, and every register and pin is at a legal value. -/
theorem resetMeetsInvariant : Obligations.ResetMeetsInvariant := ⟨Memory.wf_nil, rfl, rfl, rfl, rfl, rfl, rfl⟩

/-! ### Bytes at the command port (10 R12, R21) -/

/-- Settles O10: the bytes complete the packet and none is left over. -/
theorem stepRunsTheDecodedPacket : Obligations.StepRunsTheDecodedPacket := by
  intro s bytes i es hbusy hdec hin hpk
  have hfeed : s.dec.feed bytes = .packet i [] := hdec ▸ hpk
  calc step s = takeInput (pushes bytes ++ es) s := hin ▸ step_idle hbusy
    _ = exec i { s with dec := .idle, input := es } := by
      rw [takeInput_pushes, hfeed]
      rfl
    _ = exec i { s with input := es } := by rw [← hdec]

/-- Settles O11: the bytes move DEC, and then no event is left. -/
theorem partialPacketChangesOnlyDec : Obligations.PartialPacketChangesOnlyDec := by
  intro s bytes d hbusy hin hfeed
  have h := takeInput_pushes bytes [] s
  rw [hfeed, List.append_nil, ← hin, ← step_idle hbusy] at h
  exact h

/-- What a step takes are the events it is given, whatever the state says is to come. -/
theorem takeInput_setInput (es input : List PortEvent) (s : State) : takeInput es { s with input := input } = takeInput es s := by
  induction es generalizing s with
  | nil => rfl
  | cons e es ih =>
    cases e with
    | write offset v =>
      unfold takeInput
      split
      · cases s.dec.push v with
        | more d => exact ih { s with dec := d }
        | done i => rfl
      · exact ih s
    | trdy level => exact ih { s with trdy := level }
    | bus bytes => exact ih { s with bus := bytes }
    | erst => rfl

/-- Settles O12: the step passes over the write and takes the events after it. -/
theorem writesToOtherOffsetsAreIgnored : Obligations.WritesToOtherOffsetsAreIgnored := by
  intro s offset v es hbusy hoff hin
  calc step s = takeInput (.write offset v :: es) s := hin ▸ step_idle hbusy
    _ = takeInput es s := by rw [takeInput, if_neg hoff]
    _ = takeInput es { s with input := es } := (takeInput_setInput es es s).symm
    _ = step { s with input := es } := (step_idle (s := { s with input := es }) hbusy).symm

/-! ### The register window (10 R19, R20) -/

/-- FLAGS bit by bit (10 R20). -/
theorem flags_getLsbD (s : State) (k : Nat) :
    s.flags.getLsbD k =
      match k with
      | 0 => s.ok
      | 1 => s.inited
      | 2 => s.cend
      | 3 => s.midpkt
      | _ => false := by
  simp only [State.flags, BitVec.getLsbD_append, BitVec.getLsbD_ofBool]
  match k with
  | 0 | 1 | 2 | 3 => simp
  | k + 4 => simp

/-- Settles O14: each register is a field of the state, and FLAGS is read bit by bit. -/
theorem registerWindowReads : Obligations.RegisterWindowReads := by
  intro s
  have hflags := flags_getLsbD s
  refine ⟨rfl, rfl, ?_, ?_, rfl, ?_, ?_, ?_, hflags 1, hflags 2, ?_, fun k hk => ?_⟩
  · exact (BitVec.toNat_append 0#1 s.cx).trans (by simp)
  · exact (BitVec.toNat_append 0#5 s.cp).trans (by simp)
  · simp [State.readReg, loByte]
  · have := s.lncnt.isLt
    simp only [State.readReg, hiByte, BitVec.extractLsb'_toNat, Nat.shiftRight_eq_div_pow]
    omega
  · exact (hflags 0).trans (by simp [State.ok, beq_eq_decide])
  · exact (hflags 3).trans (by simp [State.midpkt, bne, beq_eq_decide])
  · obtain ⟨n, rfl⟩ := Nat.exists_eq_add_of_le' hk
    exact hflags (n + 4)

end Sys2Proof.Machine
end

section
/-! SUPPORT. The packets of 30_encoding.md as one relation between an instruction and its bytes (`Packet`): the decoder takes
exactly the packets, and they are exactly the encodings of the well-formed instructions. The statements on the decoder follow. -/

open Sys2Proof.Machine

namespace Sys2Proof

/-! ### The framing of a packet (30 R61, R66) -/

/-- The payload bytes that a payload rule admits (30 R61, R73). -/
@[simp] def Payload.Fits : Payload → List Byte → Prop
  | .none, pay => pay = []
  | .counted n, pay => pay.length = n
  | .terminated, pay => strOk pay = true

/-- The payload as it stands in the stream: a terminated one has its terminator after it. -/
@[simp] def Payload.stream : Payload → List Byte → List Byte
  | .terminated, pay => pay ++ [Config.stringTerm]
  | .none, pay | .counted _, pay => pay

/-- The bytes are a packet of the instruction: an opcode byte, as many operand bytes as its format asks for, and a payload that
fits them (30 R60, R61). -/
inductive Packet : Instr → List Byte → Prop
  | intro (op : Byte) (opb pay : List Byte) (hlen : opb.length = (formatOf op).noper)
    (hfit : ((formatOf op).payload opb).Fits pay) :
    Packet (assemble op opb pay) (op :: (opb ++ ((formatOf op).payload opb).stream pay))

theorem Packet.of_eq {i j : Instr} {bytes : List Byte} (h : Packet i bytes) (hij : i = j) : Packet j bytes := hij ▸ h

/-! ### The decoder takes a packet -/

/-- What the bytes after a byte decode to, from what that byte did. -/
@[simp] def Progress.feed : Progress → List Byte → Decoded
  | .more d, bs => d.feed bs
  | .done i, bs => .packet i bs

theorem feed_cons_push (d : Dec) (b : Byte) (bs : List Byte) : d.feed (b :: bs) = (d.push b).feed bs := by
  rw [feed_cons]
  cases d.push b <;> rfl

theorem feed_operands (op : Byte) (latched as bs : List Byte) (k : Nat) (h : as.length = k + 1) :
    (Dec.operands op (k + 1) latched).feed (as ++ bs) = (afterOperands op (latched ++ as)).feed bs := by
  induction as generalizing latched k with
  | nil => cases h
  | cons a as ih =>
    rw [List.cons_append, feed_cons_push]
    cases k with
    | zero =>
      obtain rfl : as = [] := by simpa using h
      rfl
    | succ k => simpa [Dec.push] using ih (latched ++ [a]) k (by simpa using h)

theorem decode_opcode {op : Byte} {opb : List Byte} (h : opb.length = (formatOf op).noper) (bs : List Byte) :
    decode (op :: (opb ++ bs)) = (afterOperands op opb).feed bs := by
  unfold decode
  rw [feed_cons_push]
  cases opb with
  | nil => rw [Dec.push, ← h]; rfl
  | cons a as => rw [Dec.push, ← h]; exact feed_operands op [] (a :: as) bs as.length rfl

theorem feed_afterOperands {op : Byte} {opb pay : List Byte} (h : ((formatOf op).payload opb).Fits pay) (rest : List Byte) :
    (afterOperands op opb).feed (((formatOf op).payload opb).stream pay ++ rest) = .packet (assemble op opb pay) rest := by
  unfold afterOperands
  cases hp : (formatOf op).payload opb with
  | none =>
    obtain rfl : pay = [] := by simpa [hp] using h
    rfl
  | counted n =>
    have hn : pay.length = n := by simpa [hp] using h
    cases n with
    | zero =>
      obtain rfl : pay = [] := List.length_eq_zero_iff.mp hn
      rfl
    | succ n => exact feed_payloadN op opb [] pay rest n hn
  | terminated =>
    have hs : strOk pay = true := by simpa [hp] using h
    simpa using feed_payloadZ op opb [] pay rest hs

/-- A string without its terminator stays in the payload buffer (30 R73). -/
theorem feed_payloadZ_unterminated (op : Byte) (opb buf str : List Byte) (h : strOk str = true) :
    (Dec.payloadZ op opb buf).feed str = .incomplete (.payloadZ op opb (buf ++ str)) := by
  induction str generalizing buf with
  | nil => simp
  | cons c cs ih =>
    obtain ⟨hc, hcs⟩ : c ≠ 0x00#8 ∧ strOk cs = true := by simpa [strOk] using h
    rw [feed_cons_push]
    simpa [Dec.push, hc] using ih (buf ++ [c]) hcs

theorem Packet.decode_append {i : Instr} {bytes : List Byte} (h : Packet i bytes) (rest : List Byte) :
    decode (bytes ++ rest) = .packet i rest := by
  obtain ⟨op, opb, pay, hlen, hfit⟩ := h
  rw [List.cons_append, List.append_assoc, decode_opcode hlen, feed_afterOperands hfit]

/-! ### The decoder takes nothing but packets -/

/-- The bytes of the current packet that the decoder has taken in. -/
@[simp] def Dec.taken : Dec → List Byte
  | .idle => []
  | .operands op _ latched => op :: latched
  | .payloadN op opb _ buf | .payloadZ op opb buf => op :: (opb ++ buf)

/-- What came of the bytes of a packet so far: the decoder holds them all, or they were the packet of an instruction. -/
@[simp] def Progress.AccountsFor (bytes : List Byte) : Progress → Prop
  | .more d => d.taken = bytes
  | .done i => Packet i bytes

theorem afterOperands_accountsFor {op : Byte} {opb : List Byte} (hlen : opb.length = (formatOf op).noper) :
    (afterOperands op opb).AccountsFor (op :: opb) := by
  have hpacket (hfit : ((formatOf op).payload opb).Fits []) (hstream : ((formatOf op).payload opb).stream [] = []) :
      Packet (assemble op opb []) (op :: opb) := by
    simpa only [hstream, List.append_nil] using Packet.intro op opb [] hlen hfit
  unfold afterOperands
  cases hp : (formatOf op).payload opb with
  | none => exact hpacket (by simp [hp]) (by simp [hp])
  | counted n =>
    cases n with
    | zero => exact hpacket (by simp [hp]) (by simp [hp])
    | succ n => simp
  | terminated => simp

/-- A byte pushed in a legal state joins the bytes taken before it. -/
theorem push_accountsFor {d : Dec} (hd : decOk d = true) (b : Byte) : (d.push b).AccountsFor (d.taken ++ [b]) := by
  cases d with
  | idle =>
    unfold Dec.push
    cases hn : (formatOf b).noper with
    | zero => exact afterOperands_accountsFor hn.symm
    | succ k => rfl
  | operands op k latched =>
    obtain ⟨hk, hlen⟩ : k ≠ 0 ∧ latched.length + k = (formatOf op).noper := by simpa [decOk] using hd
    match k with
    | 1 => exact afterOperands_accountsFor (by simpa using hlen)
    | k + 2 => rfl
  | payloadN op opb remaining buf =>
    obtain ⟨⟨hr, hlen⟩, hp⟩ :
        (remaining ≠ 0 ∧ opb.length = (formatOf op).noper) ∧ (formatOf op).payload opb = .counted (remaining + buf.length) := by
      simpa [decOk] using hd
    match remaining with
    | 1 =>
      simpa [hp, Dec.push] using Packet.intro op opb (buf ++ [b]) hlen (by simp [hp, Nat.add_comm])
    | r + 2 => simp [Dec.push]
  | payloadZ op opb buf =>
    obtain ⟨⟨hlen, hp⟩, hs⟩ :
        (opb.length = (formatOf op).noper ∧ (formatOf op).payload opb = .terminated) ∧ strOk buf = true := by
      simpa [decOk] using hd
    by_cases hb : b = Config.stringTerm
    · simpa [hp, hb, Dec.push] using Packet.intro op opb buf hlen (by simpa [hp] using hs)
    · simp [Dec.push, hb]

/-- What a legal decoder state completes is a packet: the bytes taken before and those taken now. -/
theorem packet_of_feed {d : Dec} {bytes rest : List Byte} {i : Instr} (hd : decOk d = true)
    (h : d.feed bytes = .packet i rest) : ∃ now, Packet i (d.taken ++ now) ∧ bytes = now ++ rest := by
  induction bytes generalizing d with
  | nil => cases h
  | cons b bs ih =>
    have hacc := push_accountsFor hd b
    rw [feed_cons_push] at h
    cases hp : d.push b with
    | more d' =>
      rw [hp] at h hacc
      obtain ⟨now, hpk, rfl⟩ := ih (decOk_of_push hp hd) h
      have htaken : d'.taken = d.taken ++ [b] := hacc
      exact ⟨b :: now, by simpa only [htaken, List.append_assoc, List.singleton_append] using hpk, rfl⟩
    | done j =>
      rw [hp] at h hacc
      cases h
      exact ⟨[b], hacc, rfl⟩

theorem packet_of_decode {bytes rest : List Byte} {i : Instr} (h : decode bytes = .packet i rest) :
    ∃ taken, Packet i taken ∧ bytes = taken ++ rest :=
  packet_of_feed (d := .idle) rfl h

/-! ### The reserved space (30 R71) -/

/-- The bytes R71 reserves: 0F and 12 to FF. -/
def ReservedByte (op : Byte) : Prop := op = 0x0F#8 ∨ 0x12 ≤ op.toNat

theorem ReservedByte.formatOf {op : Byte} (h : ReservedByte op) : formatOf op = .z := by
  revert op
  unfold ReservedByte
  decide

theorem ReservedByte.opcodeOf_reservedOf {op : Byte} (h : ReservedByte op) : opcodeOf (reservedOf op) = op := by
  revert op
  unfold ReservedByte
  decide

theorem ReservedByte.assemble {op : Byte} (h : ReservedByte op) (opb pay : List Byte) : assemble op opb pay = reservedOf op := by
  have hop : op.toNat = 0x0F ∨ 0x12 ≤ op.toNat := h.imp (congrArg BitVec.toNat) id
  unfold Sys2Proof.assemble
  split
  case h_18 => rfl
  all_goals omega

theorem isReserved_reservedOf (op : Byte) : isReserved (reservedOf op) = true := by
  unfold reservedOf
  repeat' split
  all_goals rfl

theorem reservedByte_opcodeOf {i : Instr} (h : isReserved i = true) : ReservedByte (opcodeOf i) ∧ reservedOf (opcodeOf i) = i := by
  unfold ReservedByte
  cases i with
  | rsvd0F => decide
  | rsvd12 low | rsvd14 low | rsvd18 low | rsvd20 low | rsvd40 low | rsvd80 low => revert low; decide
  | _ => cases h

theorem encode_of_isReserved {i : Instr} (h : isReserved i = true) : i.wf = true ∧ encode i = [opcodeOf i] := by
  cases i with
  | rsvd0F | rsvd12 low | rsvd14 low | rsvd18 low | rsvd20 low | rsvd40 low | rsvd80 low => exact ⟨rfl, rfl⟩
  | _ => cases h

theorem ReservedByte.packet {op : Byte} (h : ReservedByte op) : Packet (reservedOf op) [op] := by
  simpa [h.formatOf, h.assemble, Format.payload] using
    Packet.intro op [] [] (by simp [h.formatOf, Format.noper]) (by simp [h.formatOf, Format.payload])

theorem packet_of_isReserved {i : Instr} (h : isReserved i = true) : Packet i (encode i) := by
  obtain ⟨hbyte, hi⟩ := reservedByte_opcodeOf h
  rw [(encode_of_isReserved h).2]
  exact hbyte.packet.of_eq hi

theorem exec_of_isReserved {i : Instr} (h : isReserved i = true) (s : State) : exec i s = .next (s.raise .badCmd) := by
  cases i with
  | rsvd0F | rsvd12 low | rsvd14 low | rsvd18 low | rsvd20 low | rsvd40 low | rsvd80 low => rfl
  | _ => cases h

/-! ### Packets are encodings (30 R66, R70) -/

/-- The opcodes of the commands of each format (30 R70). -/
def Format.opcodes : Format → List Byte
  | .z => [0x00#8, 0x01#8, 0x02#8, 0x0D#8]
  | .a => [0x07#8]
  | .ab => [0x03#8, 0x05#8, 0x06#8, 0x10#8]
  | .w => [0x11#8]
  | .abc => [0x09#8]
  | .abw => [0x0C#8]
  | .abwp => [0x0B#8]
  | .b504 => [0x04#8]
  | .s => [0x08#8]
  | .abs => [0x0A#8]
  | .l => [0x0E#8]

/-- Every byte is the opcode of a command or reserved (30 R70, R71). -/
theorem mem_opcodes_or_reserved (op : Byte) : op ∈ (formatOf op).opcodes ∨ ReservedByte op := by
  revert op
  unfold ReservedByte
  decide

/-- The parts of a command's packet are the encoding of what they assemble to, format by format. -/
theorem encode_assemble {f : Format} {op : Byte} {opb pay : List Byte} (hop : op ∈ f.opcodes) (hlen : opb.length = f.noper)
    (hfit : (f.payload opb).Fits pay) :
    (assemble op opb pay).wf = true ∧ encode (assemble op opb pay) = op :: (opb ++ (f.payload opb).stream pay) := by
  cases f with
  | z =>
    match opb, pay, hlen, hfit with
    | [], [], _, _ => fin_cases hop <;> exact ⟨rfl, rfl⟩
  | a =>
    obtain rfl := List.mem_singleton.mp hop
    match opb, pay, hlen, hfit with
    | [c], [], _, _ => exact ⟨rfl, rfl⟩
  | ab =>
    match opb, pay, hlen, hfit with
    | [a, b], [], _, _ => fin_cases hop <;> exact ⟨rfl, rfl⟩
  | w =>
    obtain rfl := List.mem_singleton.mp hop
    match opb, pay, hlen, hfit with
    | [lo, hi], [], _, _ => exact ⟨rfl, by simp [assemble, encode, opcodeOf, operandBytes, Format.payload]⟩
  | abc =>
    obtain rfl := List.mem_singleton.mp hop
    match opb, pay, hlen, hfit with
    | [a, b, c], [], _, _ => exact ⟨rfl, rfl⟩
  | abw =>
    obtain rfl := List.mem_singleton.mp hop
    match opb, pay, hlen, hfit with
    | [a, b, lo, hi], [], _, _ => exact ⟨rfl, by simp [assemble, encode, opcodeOf, operandBytes, Format.payload]⟩
  | abwp =>
    obtain rfl := List.mem_singleton.mp hop
    match opb, hlen with
    | [a, b, lo, hi], _ =>
      exact ⟨beq_iff_eq.mpr hfit, by simp [assemble, encode, opcodeOf, operandBytes, Format.payload]⟩
  | b504 =>
    obtain rfl := List.mem_singleton.mp hop
    obtain rfl := List.length_eq_zero_iff.mp hlen
    exact ⟨beq_iff_eq.mpr hfit, rfl⟩
  | s =>
    obtain rfl := List.mem_singleton.mp hop
    obtain rfl := List.length_eq_zero_iff.mp hlen
    exact ⟨hfit, rfl⟩
  | abs =>
    obtain rfl := List.mem_singleton.mp hop
    match opb, hlen with
    | [a, b], _ => exact ⟨hfit, rfl⟩
  | l =>
    obtain rfl := List.mem_singleton.mp hop
    match opb, pay, hlen, hfit with
    | [x0lo, x0hi, y0lo, y0hi, x1lo, x1hi, y1lo, y1hi, nlo, nhi], [], _, _ =>
      exact ⟨rfl, by simp [assemble, encode, opcodeOf, operandBytes, Format.payload]⟩

/-- A packet is its instruction's encoding, and the instruction is well-formed. -/
theorem Packet.encode_eq {i : Instr} {bytes : List Byte} (h : Packet i bytes) : i.wf = true ∧ encode i = bytes := by
  obtain ⟨op, opb, pay, hlen, hfit⟩ := h
  rcases mem_opcodes_or_reserved op with hop | hres
  · exact encode_assemble hop hlen hfit
  · rw [hres.formatOf] at hlen hfit ⊢
    obtain rfl := List.length_eq_zero_iff.mp hlen
    obtain rfl : pay = [] := hfit
    obtain ⟨hwf, henc⟩ := encode_of_isReserved (isReserved_reservedOf op)
    rw [hres.assemble]
    exact ⟨hwf, by simp [henc, hres.opcodeOf_reservedOf, Format.payload]⟩

/-- Every well-formed instruction is assembled from the parts of its encoding. -/
theorem packet_encode {i : Instr} (h : i.wf = true) : Packet i (encode i) := by
  cases i with
  | nop => exact .intro 0x00#8 [] [] rfl rfl
  | init => exact .intro 0x01#8 [] [] rfl rfl
  | clear => exact .intro 0x02#8 [] [] rfl rfl
  | gotoxy x page => exact .intro 0x03#8 [x, page] [] rfl rfl
  | bitmap payload => exact .intro 0x04#8 [] payload rfl (beq_iff_eq.mp h)
  | setpx x y => exact .intro 0x05#8 [x, y] [] rfl rfl
  | clrpx x y => exact .intro 0x06#8 [x, y] [] rfl rfl
  | putc c => exact .intro 0x07#8 [c] [] rfl rfl
  | puts str => exact .intro 0x08#8 [] str rfl h
  | putcxy x page c => exact .intro 0x09#8 [x, page, c] [] rfl rfl
  | putsxy x page str => exact .intro 0x0A#8 [x, page] str rfl h
  | wrxy x page len payload =>
    have hp : payload.length = (half (hiByte len) (loByte len)).toNat := (beq_iff_eq.mp h).trans (by simp)
    exact (Packet.intro 0x0B#8 [x, page, loByte len, hiByte len] payload rfl hp).of_eq (by simp [assemble])
  | clrrng x page len => exact (Packet.intro 0x0C#8 [x, page, loByte len, hiByte len] [] rfl rfl).of_eq (by simp [assemble])
  | sync => exact .intro 0x0D#8 [] [] rfl rfl
  | line x0 y0 x1 y1 mindots =>
    exact (Packet.intro 0x0E#8 (operandBytes (.line x0 y0 x1 y1 mindots)) [] rfl rfl).of_eq (by simp [assemble, operandBytes])
  | rdpix x y => exact .intro 0x10#8 [x, y] [] rfl rfl
  | rdbyte idx => exact (Packet.intro 0x11#8 [loByte idx, hiByte idx] [] rfl rfl).of_eq (by simp [assemble])
  | rsvd0F | rsvd12 low | rsvd14 low | rsvd18 low | rsvd20 low | rsvd40 low | rsvd80 low => exact packet_of_isReserved rfl

/-! ### The rows of the opcode table (30 R70, R71) -/

theorem mnemonicOf_assemble (op : Byte) (opb pay : List Byte) :
    mnemonicOf (assemble op opb pay) = mnemonicOf (assemble op [] []) := by
  unfold assemble
  split <;> rfl

theorem covering_rows_length (op : Byte) : (opcodeRows.filter (fun r => r.covers op)).length = 1 := by
  revert op
  decide

theorem mnemonicOf_of_covers (op : Byte) :
    ∀ r ∈ opcodeRows, r.covers op = true → mnemonicOf (assemble op [] []) = r.mnemonic := by
  revert op
  decide

/-! ### The statements -/

/-- Settles O7: the encoding of a well-formed instruction is a packet, and the decoder takes it. -/
theorem decodeOfEncodeIsIdentity : Obligations.DecodeOfEncodeIsIdentity := fun _ rest hwf =>
  (packet_encode hwf).decode_append rest

/-- Settles O8: what the decoder takes is a packet, and a packet is an encoding. -/
theorem decodedPacketIsItsEncoding : Obligations.DecodedPacketIsItsEncoding := by
  intro bytes rest i h
  obtain ⟨taken, hpacket, rfl⟩ := packet_of_decode h
  obtain ⟨hwf, henc⟩ := hpacket.encode_eq
  exact ⟨hwf, by rw [henc]⟩

/-- Settles O9: the opcode and the operands bring the decoder to PAYLOAD_Z, and the string leaves it there. -/
theorem unterminatedStringKeepsWaiting : Obligations.UnterminatedStringKeepsWaiting := fun x page str h =>
  ⟨feed_payloadZ_unterminated 0x08#8 [] [] str h, feed_payloadZ_unterminated 0x0A#8 [x, page] [] str h⟩

/-- Settles O48: a reserved byte is a packet by itself, and a reserved instruction raises BAD_CMD. -/
theorem reservedByteIsBadCmd : Obligations.ReservedByteIsBadCmd :=
  ⟨fun op rest hop => ⟨reservedOf op, (ReservedByte.packet hop).decode_append rest, isReserved_reservedOf op⟩,
    fun _ s hi => exec_of_isReserved hi s⟩

/-- Settles O5: operands and payload do not bear on the mnemonic, so the 256 opcode bytes are all the cases. -/
theorem everyOpcodeByteIsOfOneRow : Obligations.EveryOpcodeByteIsOfOneRow :=
  ⟨covering_rows_length, fun op opb pay r hr hc => (mnemonicOf_assemble op opb pay).trans (mnemonicOf_of_covers op r hr hc)⟩

/-- Settles O6, by running the decoder on the spec's words. -/
theorem specExamplesDecode : Obligations.SpecExamplesDecode := by
  unfold Obligations.SpecExamplesDecode
  decide

end Sys2Proof
end

section
/-! SUPPORT. The framebuffer and pixel-mask commands (40_framebuffer_ops.md): what a byte run and a pixel command do, each said
once, and the statements that follow. SETPX and CLRPX are one command with the bit to write as a parameter (`pixelCmd`). -/

namespace Sys2Proof.Machine

/-! ### Byte runs (40 R101, R102, R105, R106) -/

/-- A run that fits reads back byte for byte. -/
theorem Memory.read_writeRun_inside (era : Nat) (m : Memory) {off i : Nat} {bs : List Byte} (hfit : off + bs.length ≤ 504)
    (hi : i < bs.length) : Memory.read era (Memory.writeRun m off bs) (off + i) = bs.getD i 0#8 := by
  rw [Memory.read_writeRun, if_pos (by omega), Nat.add_sub_cancel_left]

theorem Memory.read_writeRun_outside (era : Nat) (m : Memory) {off a : Nat} {bs : List Byte}
    (ha : a < off ∨ off + bs.length ≤ a) :
    Memory.read era (Memory.writeRun m off bs) a = Memory.read era m a := by
  rw [Memory.read_writeRun, if_neg (by omega)]

/-- The state after a command that has written the framebuffer, as a record (CLEAR's 504 writes need not be run to see it). -/
theorem State.setFb_pass (s : State) (m : Memory) : (s.setFb m).pass = { s with fb := m, status := 0#8 } := rfl

/-- A run of 504 bytes is the whole framebuffer (40 R101, R102). -/
theorem Memory.read_writeRun_whole (era : Nat) (m : Memory) {i : Nat} {bs : List Byte} (hlen : bs.length = 504) (hi : i < 504) :
    Memory.read era (Memory.writeRun m 0 bs) i = bs.getD i 0#8 := by
  simpa using Memory.read_writeRun_inside era m (off := 0) (by omega) (hlen ▸ hi)

section
variable (s : State) (x page : Byte) (len : Nat) (bytes : List Byte)

theorem storeRun_refused (h : 83 < x.toNat ∨ 5 < page.toNat ∨ 504 < runOff x.toNat page.toNat + len) :
    storeRun x page len bytes s = s.raise .oob := by
  rcases storeRun_cases x page len bytes s with ⟨_, hs⟩ | ⟨_, _, _, _⟩
  · exact hs
  · omega

theorem storeRun_fits (hx : x.toNat ≤ 83) (hp : page.toNat ≤ 5) (hfit : runOff x.toNat page.toNat + len ≤ 504) :
    storeRun x page len bytes s = (s.setFb (Memory.writeRun s.fb (runOff x.toNat page.toNat) bytes)).pass := by
  rcases storeRun_cases x page len bytes s with ⟨_, _⟩ | ⟨_, _, _, hs⟩
  · omega
  · exact hs

/-- A run that fits puts its bytes at their places, leaves the other bytes, and changes no other field but STATUS. -/
theorem storeRun_writes (hlen : bytes.length = len) (hx : x.toNat ≤ 83) (hp : page.toNat ≤ 5)
    (hfit : runOff x.toNat page.toNat + len ≤ 504) :
    ∃ m, storeRun x page len bytes s = (s.setFb m).pass ∧
      (∀ i, i < len → Memory.read s.fbEra m (runOff x.toNat page.toNat + i) = bytes.getD i 0#8) ∧
      ∀ a, a < runOff x.toNat page.toNat ∨ runOff x.toNat page.toNat + len ≤ a → Memory.read s.fbEra m a = s.fbRead a := by
  subst hlen
  exact ⟨_, storeRun_fits s x page _ bytes hx hp hfit, fun _ hi => Memory.read_writeRun_inside _ _ hfit hi,
    fun _ ha => Memory.read_writeRun_outside _ _ ha⟩

end

/-! ### Writing one bit (20 R42) -/

/-- The byte with a pixel of it written: set for 1, cleared for 0. -/
def writeBit : Bool → Byte → Nat → Byte
  | true => setBit
  | false => clearBit

theorem writeBit_getLsbD (b : Bool) (v : Byte) (y i : Nat) :
    (writeBit b v y).getLsbD i = if i = y % 8 then b else v.getLsbD i := by
  cases b
  · by_cases h : i = y % 8 <;> simp [writeBit, clearBit_getLsbD, h]
  · by_cases h : i = y % 8 <;> simp [writeBit, setBit_getLsbD, h]

/-- The later write of a pixel decides its value. -/
theorem writeBit_writeBit (b c : Bool) (v : Byte) (y : Nat) : writeBit c (writeBit b v y) y = writeBit c v y := by
  apply BitVec.eq_of_getLsbD_eq
  intro i _
  simp only [writeBit_getLsbD]
  split <;> rfl

theorem writeBit_comm (b c : Bool) (v : Byte) {y y' : Nat} (h : y % 8 ≠ y' % 8) :
    writeBit c (writeBit b v y) y' = writeBit b (writeBit c v y') y := by
  apply BitVec.eq_of_getLsbD_eq
  intro i _
  simp only [writeBit_getLsbD]
  by_cases hi : i = y % 8
  · rw [if_neg (by omega), if_pos hi, if_pos hi]
  · rw [if_neg hi, if_neg hi]

/-! ### SETPX and CLRPX as one command (40 R103, R104) -/

/-- The command that writes a pixel: SETPX for 1, CLRPX for 0. -/
def pixelCmd : Bool → Byte → Byte → Instr
  | true => .setpx
  | false => .clrpx

/-- An instruction that writes a pixel is a `pixelCmd`. -/
theorem exists_pixelCmd {i : Instr} {x y : Byte} (h : i = .setpx x y ∨ i = .clrpx x y) : ∃ b, i = pixelCmd b x y :=
  h.elim (⟨true, ·⟩) (⟨false, ·⟩)

theorem coordsOk_iff (x y : Byte) : (xOk x && yOk y) = true ↔ x.toNat ≤ 83 ∧ y.toNat ≤ 47 := by simp

theorem coordsOk_false {x y : Byte} (h : 83 < x.toNat ∨ 47 < y.toNat) : ¬(xOk x && yOk y) = true := by
  rw [coordsOk_iff]
  omega

theorem exec_pixelCmd_refused (b : Bool) (s : State) {x y : Byte} (h : 83 < x.toNat ∨ 47 < y.toNat) :
    exec (pixelCmd b x y) s = .next (s.raise .oob) := by
  cases b <;> exact congrArg Host.Outcome.next (if_neg (coordsOk_false h))

/-- At a legal coordinate one bit of one byte is written, the other bytes stay, and no other field but STATUS changes. -/
theorem exec_pixelCmd_writes (b : Bool) (s : State) {x y : Byte} (hx : x.toNat ≤ 83) (hy : y.toNat ≤ 47) :
    ∃ m, exec (pixelCmd b x y) s = .next (s.setFb m).pass ∧ ∀ a, Memory.read s.fbEra m a =
      if a = pixIndex x.toNat y.toNat then writeBit b (s.fbRead a) y.toNat else s.fbRead a := by
  have hok := (coordsOk_iff x y).mpr ⟨hx, hy⟩
  cases b with
  | true => exact ⟨_, congrArg Host.Outcome.next (if_pos hok), Memory.read_setPixel _ _ hx hy⟩
  | false => exact ⟨_, congrArg Host.Outcome.next (if_pos hok), Memory.read_clearPixel _ _ hx hy⟩

/-- The form in which O18 and O19 say it: the byte that holds the pixel, then every other byte. -/
theorem exec_pixelCmd_writesOneBit (b : Bool) (s : State) {x y : Byte} (hx : x.toNat ≤ 83) (hy : y.toNat ≤ 47) :
    ∃ m, exec (pixelCmd b x y) s = .next (s.setFb m).pass ∧
      Memory.read s.fbEra m (pixIndex x.toNat y.toNat) = writeBit b (s.fbRead (pixIndex x.toNat y.toNat)) y.toNat ∧
      ∀ i, i ≠ pixIndex x.toNat y.toNat → Memory.read s.fbEra m i = s.fbRead i := by
  obtain ⟨m, hexec, hread⟩ := exec_pixelCmd_writes b s hx hy
  exact ⟨m, hexec, (hread _).trans (if_pos rfl), fun i hi => (hread i).trans (if_neg hi)⟩

/-! ### The framebuffer after a pixel command (40 R110) -/

/-- What a pixel command makes of byte `v` at index `a`; out of range it leaves every byte. -/
def pixelByte (b : Bool) (x y : Byte) (a : Nat) (v : Byte) : Byte :=
  if (x.toNat ≤ 83 ∧ y.toNat ≤ 47) ∧ a = pixIndex x.toNat y.toNat then writeBit b v y.toNat else v

/-- The framebuffer of `t` is that of `s` after the pixel command. -/
def Paints (b : Bool) (x y : Byte) (s t : State) : Prop := ∀ a, t.fbRead a = pixelByte b x y a (s.fbRead a)

theorem exec_pixelCmd_paints (b : Bool) (x y : Byte) (s : State) :
    ∃ t, exec (pixelCmd b x y) s = .next t ∧ Paints b x y s t := by
  by_cases h : x.toNat ≤ 83 ∧ y.toNat ≤ 47
  · obtain ⟨m, hexec, hread⟩ := exec_pixelCmd_writes b s h.1 h.2
    exact ⟨_, hexec, fun a => (hread a).trans (by simp [pixelByte, h])⟩
  · exact ⟨_, exec_pixelCmd_refused b s (by omega), fun a => (if_neg fun hc => h hc.1).symm⟩

theorem pixelByte_pixelByte (b c : Bool) (x y : Byte) (a : Nat) (v : Byte) :
    pixelByte c x y a (pixelByte b x y a v) = pixelByte c x y a v := by
  unfold pixelByte
  split
  · exact writeBit_writeBit b c v _
  · rfl

/-- Two pixels of one byte are two bits of it; any others are in two bytes. -/
theorem pixelByte_comm (b c : Bool) {x y x' y' : Byte} (h : (x, y) ≠ (x', y')) (a : Nat) (v : Byte) :
    pixelByte c x' y' a (pixelByte b x y a v) = pixelByte b x y a (pixelByte c x' y' a v) := by
  unfold pixelByte
  by_cases h1 : (x.toNat ≤ 83 ∧ y.toNat ≤ 47) ∧ a = pixIndex x.toNat y.toNat
  · by_cases h2 : (x'.toNat ≤ 83 ∧ y'.toNat ≤ 47) ∧ a = pixIndex x'.toNat y'.toNat
    · simp only [if_pos h1, if_pos h2]
      obtain ⟨⟨hx, _⟩, ha⟩ := h1
      obtain ⟨⟨hx', _⟩, ha'⟩ := h2
      obtain ⟨hcol, hpage⟩ := (pixIndex_inj hx hx').mp (ha.symm.trans ha')
      have hrow : y.toNat ≠ y'.toNat := fun hy => h (Prod.ext (BitVec.eq_of_toNat_eq hcol) (BitVec.eq_of_toNat_eq hy))
      exact writeBit_comm b c v (by omega)
    · simp only [if_neg h2]
  · simp only [if_neg h1]

theorem State.pixel_eq (s : State) (x y : Nat) : s.pixel x y = (s.fbRead (pixIndex x y)).getLsbD (y % 8) :=
  Memory.pixel_eq s.fbEra s.fb x y

section
variable {b c : Bool} {x y : Byte} {s t u : State}

/-- Two states painted from one by the same command read alike. -/
theorem Paints.fbRead_eq (ht : Paints b x y s t) (hu : Paints b x y s u) (a : Nat) : t.fbRead a = u.fbRead a :=
  (ht a).trans (hu a).symm

/-- The later of two commands on one pixel is as if the earlier had not run. -/
theorem Paints.overwrite (ht : Paints b x y s t) (hu : Paints c x y t u) : Paints c x y s u := fun a => by
  rw [hu a, ht a, pixelByte_pixelByte]

/-- The pixel takes the bit, and no other pixel of the panel changes. -/
theorem Paints.pixel (ht : Paints b x y s t) (hx : x.toNat ≤ 83) (hy : y.toNat ≤ 47) {x' y' : Nat} (hx' : x' ≤ 83) :
    t.pixel x' y' = if x' = x.toNat ∧ y' = y.toNat then b else s.pixel x' y' := by
  rw [State.pixel_eq, State.pixel_eq, ht, pixelByte]
  by_cases h : pixIndex x' y' = pixIndex x.toNat y.toNat
  · obtain ⟨hcol, hpage⟩ := (pixIndex_inj hx' hx).mp h
    have hbit : y' % 8 = y.toNat % 8 ↔ x' = x.toNat ∧ y' = y.toNat := by omega
    rw [if_pos ⟨⟨hx, hy⟩, h⟩, writeBit_getLsbD]
    simp only [hbit]
  · rw [if_neg fun hc => h hc.2, if_neg]
    rintro ⟨rfl, rfl⟩
    exact h rfl

theorem Paints.pixel_same (ht : Paints b x y s t) (hx : x.toNat ≤ 83) (hy : y.toNat ≤ 47) : t.pixel x.toNat y.toNat = b :=
  (ht.pixel hx hy hx).trans (if_pos ⟨rfl, rfl⟩)

theorem Paints.pixel_other (ht : Paints b x y s t) (hx : x.toNat ≤ 83) (hy : y.toNat ≤ 47) {x' y' : Nat} (hx' : x' ≤ 83)
    (h : (x', y') ≠ (x.toNat, y.toNat)) : t.pixel x' y' = s.pixel x' y' :=
  (ht.pixel hx hy hx').trans (if_neg fun hc => h (Prod.ext hc.1 hc.2))

/-- Each of the two commands after the other gives the framebuffer it gives alone. -/
theorem Paints.exec_overwrite (ht : Paints b x y s t) (hu : Paints c x y s u) :
    ∃ v, exec (pixelCmd c x y) t = .next v ∧ ∀ i, v.fbRead i = u.fbRead i := by
  obtain ⟨v, hexec, hv⟩ := exec_pixelCmd_paints c x y t
  exact ⟨v, hexec, (ht.overwrite hv).fbRead_eq hu⟩

end

/-! ### Testing one bit (20 R42) -/

/-- The bit of a pixel as RESULT takes it (40 R107). -/
theorem State.ite_pixel (s : State) (x y : Nat) :
    (if s.pixel x y then 1#8 else 0#8) = if s.fbRead (pixIndex x y) &&& pixMask y = 0#8 then 0#8 else 1#8 := by
  unfold State.pixel Memory.pixel State.fbRead
  by_cases h : Memory.read s.fbEra s.fb (pixIndex x y) &&& pixMask y = 0#8 <;> simp [h]

/-! ### The statements -/

/-- Settles O24: SETPX and CLRPX each decide the pixel whatever was there, and touch no other. -/
theorem pixelSetAndClearAreInverse : Obligations.PixelSetAndClearAreInverse := by
  intro s x y hx hy
  obtain ⟨t, hset, ht⟩ := exec_pixelCmd_paints true x y s
  obtain ⟨u, hclear, hu⟩ := exec_pixelCmd_paints false x y s
  exact ⟨t, u, hset, hclear, ht.pixel_same hx hy, hu.pixel_same hx hy, ht.exec_overwrite hu, hu.exec_overwrite ht,
    fun _ _ hx' _ hne => ⟨ht.pixel_other hx hy hx' hne, hu.pixel_other hx hy hx' hne⟩⟩

/-- Settles O25: byte for byte, the two writes are of two bits or of two bytes. -/
theorem pixelWritesCommute : Obligations.PixelWritesCommute := by
  intro s x y x' y' i j hi hj hne
  obtain ⟨b, rfl⟩ := exists_pixelCmd hi
  obtain ⟨c, rfl⟩ := exists_pixelCmd hj
  obtain ⟨t, hexec_t, ht⟩ := exec_pixelCmd_paints b x y s
  obtain ⟨u, hexec_u, hu⟩ := exec_pixelCmd_paints c x' y' t
  obtain ⟨t', hexec_t', ht'⟩ := exec_pixelCmd_paints c x' y' s
  obtain ⟨u', hexec_u', hu'⟩ := exec_pixelCmd_paints b x y t'
  refine ⟨t, u, t', u', hexec_t, hexec_u, hexec_t', hexec_u', fun a => ?_⟩
  rw [hu, ht, hu', ht', pixelByte_comm b c hne]

/-- Settles O18: SETPX is the pixel command for 1. -/
theorem setpxSetsOneBit : Obligations.SetpxSetsOneBit := fun s _ _ =>
  ⟨rfl, exec_pixelCmd_refused true s, exec_pixelCmd_writesOneBit true s⟩

/-- Settles O19: CLRPX is the pixel command for 0. -/
theorem clrpxClearsOneBit : Obligations.ClrpxClearsOneBit := fun s _ _ =>
  ⟨rfl, exec_pixelCmd_refused false s, exec_pixelCmd_writesOneBit false s⟩

/-- Settles O16: CLEAR is a run of 504 zero bytes. -/
theorem clearZeroesEveryByte : Obligations.ClearZeroesEveryByte := by
  refine ⟨rfl, fun s => ⟨_, congrArg Host.Outcome.next (State.setFb_pass s _), fun i hi => ?_⟩⟩
  rw [Memory.read_writeRun_whole _ _ (zeros_length _) hi, zeros_getD]

/-- Settles O17: BITMAP is a run of its 504 payload bytes. -/
theorem bitmapReplacesTheFramebuffer : Obligations.BitmapReplacesTheFramebuffer := fun _ _ hlen =>
  ⟨rfl, _, rfl, fun _ hi => Memory.read_writeRun_whole _ _ hlen hi⟩

/-- Settles O20: the packet is the encoding of a well-formed instruction, and the run is stored whole or refused whole. -/
theorem wrxyWritesTheWholeRunOrNothing : Obligations.WrxyWritesTheWholeRunOrNothing := by
  intro s x page len payload hlen
  refine ⟨rfl, fun rest => ?_, fun h => ?_, fun hx hp hfit => ?_⟩
  · exact decodeOfEncodeIsIdentity (.wrxy x page len payload) rest (beq_iff_eq.mpr hlen)
  · exact congrArg Host.Outcome.next (storeRun_refused s x page len.toNat payload h)
  · obtain ⟨m, hrun, hbytes⟩ := storeRun_writes s x page len.toNat payload hlen hx hp hfit
    exact ⟨m, congrArg Host.Outcome.next hrun, hbytes⟩

/-- Settles O21: CLRRNG is WRXY of zeros, so a run of zeros is stored whole or refused whole. -/
theorem clrrngZeroesTheWholeRunOrNothing : Obligations.ClrrngZeroesTheWholeRunOrNothing := by
  intro s x page len
  refine ⟨rfl, rfl, fun h => ?_, fun hx hp hfit => ?_⟩
  · exact congrArg Host.Outcome.next (storeRun_refused s x page len.toNat (zeros len.toNat) h)
  · obtain ⟨m, hrun, hin, hout⟩ := storeRun_writes s x page len.toNat (zeros len.toNat) (zeros_length _) hx hp hfit
    exact ⟨m, congrArg Host.Outcome.next hrun, fun i hi => (hin i hi).trans (zeros_getD _ i), hout⟩

/-- Settles O22: the coordinate check is that of the pixel commands, and the bit tested is the pixel. -/
theorem rdpixReadsOneBit : Obligations.RdpixReadsOneBit := by
  intro s x y
  refine ⟨rfl, fun h => congrArg Host.Outcome.next (if_neg (coordsOk_false h)), fun hx hy => ?_⟩
  have hpass : exec (.rdpix x y) s = .next { s with result := if s.pixel x.toNat y.toNat then 1#8 else 0#8 }.pass :=
    congrArg Host.Outcome.next (if_pos ((coordsOk_iff x y).mpr ⟨hx, hy⟩))
  rw [hpass, State.ite_pixel]
  rfl

/-- Settles O15, by computation: the meaning of NOP is the state it is given. -/
theorem nopChangesNothing : Obligations.NopChangesNothing := ⟨rfl, fun _ => rfl⟩

/-- Settles O23: an index over 503 is none of the framebuffer's. -/
theorem rdbyteReadsOneByte : Obligations.RdbyteReadsOneByte := fun _ _ =>
  ⟨rfl, fun h => congrArg Host.Outcome.next (if_neg (Nat.not_lt.mpr h)),
    fun h => congrArg Host.Outcome.next (if_pos (Nat.lt_succ_of_le h))⟩

end Sys2Proof.Machine
end

section
/-! SUPPORT. The serial transport (41_spi_transport.md): the levels of a byte's pin sequence, what clocking bytes out changes, the
state in which INIT and SYNC end where the bus completes their bytes, and the statements that follow. -/

namespace Sys2Proof.Machine

/-! ### The pin sequence of one byte (41 R136) -/

/-- The stage that begins with the edge on which the `n`-th bit is sampled; the bit is set up in the stage before it. -/
def samplingStage (f : PinFormat) (n : Nat) : Nat := if f.sampleSecondEdge then 2 * n + 2 else 2 * n + 1

section
variable (f : PinFormat) (dc : Bool) (v : Byte)

theorem samplingStage_lt {n : Nat} (hn : n < 8) : samplingStage f n < 17 := by
  unfold samplingStage
  split <;> omega

theorem pinStage_sdin_sampling {n : Nat} (hn : n < 8) : (pinStage f dc v (samplingStage f n)).sdin = bitSent f v n := by
  cases h : f.sampleSecondEdge <;> simp only [pinStage, samplingStage, h, Bool.false_eq_true, if_false, if_true]
  · rw [show min 7 ((2 * n + 1) / 2) = n by omega]
  · rw [show (2 * n + 2 - 1) / 2 = n by omega]

theorem pinStage_sdin_setup {n : Nat} (hn : n < 8) : (pinStage f dc v (samplingStage f n - 1)).sdin = bitSent f v n := by
  cases h : f.sampleSecondEdge <;> simp only [pinStage, samplingStage, h, Bool.false_eq_true, if_false, if_true]
  · rw [show min 7 ((2 * n + 1 - 1) / 2) = n by omega]
  · rw [show (2 * n + 2 - 1 - 1) / 2 = n by omega]

theorem pinStage_sclk_sampling (n : Nat) :
    (pinStage f dc v (samplingStage f n)).sclk = (f.clockIdle ^^ !f.sampleSecondEdge) := by
  cases h : f.sampleSecondEdge <;> simp [pinStage, samplingStage, h]

theorem pinStage_sclk_setup (n : Nat) : (pinStage f dc v (samplingStage f n - 1)).sclk = (f.clockIdle ^^ f.sampleSecondEdge) := by
  cases h : f.sampleSecondEdge <;> simp [pinStage, samplingStage, h]

/-- The controller samples the eight sampling stages in order. -/
theorem samplesOf_spiFrame : samplesOf f (spiFrame f dc v) = (List.range 8).map (fun n => pinStage f dc v (samplingStage f n)) := by
  rw [samplesOf, ← List.filterMap_eq_map]
  exact List.filterMap_congr fun n hn => spiFrame_getElem? f dc v (samplingStage_lt f (List.mem_range.mp hn))

theorem samplesOf_spiFrame_getElem? {n : Nat} (hn : n < 8) :
    (samplesOf f (spiFrame f dc v))[n]? = some (pinStage f dc v (samplingStage f n)) := by
  rw [samplesOf_spiFrame, List.getElem?_map, List.getElem?_range hn, Option.map_some]

theorem samplesOf_spiFrame_sdin : (samplesOf f (spiFrame f dc v)).map (fun p => p.sdin) = (List.range 8).map (bitSent f v) := by
  rw [samplesOf_spiFrame, List.map_map]
  exact List.map_congr_left fun n hn => pinStage_sdin_sampling f dc v (List.mem_range.mp hn)

theorem spiFrame_setup_getElem? {n : Nat} (hn : n < 8) :
    (spiFrame f dc v)[if f.sampleSecondEdge then 2 * n + 1 else 2 * n]? = some (pinStage f dc v (samplingStage f n - 1)) := by
  have hstage : (if f.sampleSecondEdge then 2 * n + 1 else 2 * n) = samplingStage f n - 1 := by
    unfold samplingStage
    split <;> rfl
  rw [hstage]
  exact spiFrame_getElem? f dc v (by have := samplingStage_lt f hn; omega)

theorem spiFrame_dropLast : (spiFrame f dc v).dropLast = (List.range 17).map (pinStage f dc v) := List.dropLast_concat

theorem spiFrame_getLast? : (spiFrame f dc v).getLast? = some (spiRest f dc (bitSent f v 7)) := List.getLast?_concat

theorem dc_of_mem_spiFrame {p : Pins} (hp : p ∈ spiFrame f dc v) : p.dc = dc := by
  rcases List.mem_append.mp hp with h | h
  · obtain ⟨i, _, rfl⟩ := List.mem_map.mp h
    rfl
  · rw [List.mem_singleton.mp h]
    rfl

theorem sce_of_mem_spiFrame_dropLast {p : Pins} (hp : p ∈ (spiFrame f dc v).dropLast) : p.sce = f.sceActive := by
  rw [spiFrame_dropLast] at hp
  obtain ⟨i, _, rfl⟩ := List.mem_map.mp hp
  rfl

end

/-- Settles O47, from the levels of the sampling stages and of the stages before them. -/
theorem spiFrameIsReadInEveryFormat : Obligations.SpiFrameIsReadInEveryFormat := by
  intro f dc v
  refine ⟨samplesOf_spiFrame_sdin f dc v, ?_, fun n hn => ?_, fun p => dc_of_mem_spiFrame f dc v,
    fun p => sce_of_mem_spiFrame_dropLast f dc v, spiFrame_getLast? f dc v⟩
  · rw [samplesOf_spiFrame_getElem? f dc v f.dcSample.isLt]
    rfl
  · refine ⟨_, _, spiFrame_setup_getElem? f dc v hn, samplesOf_spiFrame_getElem? f dc v hn, ?_,
      pinStage_sclk_sampling f dc v n, ?_⟩
    · rw [pinStage_sdin_setup f dc v hn, pinStage_sdin_sampling f dc v hn]
    · rw [pinStage_sclk_setup, pinStage_sclk_sampling, Bool.xor_not, Bool.not_not]

/-- Settles O46: the reference format is one of the pin formats, and there SCLK is high in the sampling stages. -/
theorem spiFrameSendsTheTopBitFirst : Obligations.SpiFrameSendsTheTopBitFirst := by
  intro dc v
  have hhigh : (spiFrame referencePinFormat dc v).filter (fun p => p.sclk) =
      samplesOf referencePinFormat (spiFrame referencePinFormat dc v) := rfl
  obtain ⟨hbits, _, _, hdc, hsce, hlast⟩ := spiFrameIsReadInEveryFormat referencePinFormat dc v
  exact ⟨hhigh ▸ hbits, hdc, hsce, hlast⟩

/-! ### What clocking bytes out changes (41 R130, R131) -/

/-- What sending bytes, whatever their levels, changes: the serial pins and DC, the bus count and the two traces. -/
inductive Clocked (s : State) : State → Prop
  | intro (dc sclk sce sdin : Bool) (sdinDraw : Nat) (bus : Option Nat) (wire : List WireEvent) (pinTrace : List (List Pins)) :
    Clocked s { s with
      dc := dc, sclk := sclk, sce := sce, sdin := sdin, sdinDraw := sdinDraw, bus := bus, wire := wire, pinTrace := pinTrace }

theorem Clocked.refl (s : State) : Clocked s s := .intro s.dc s.sclk s.sce s.sdin s.sdinDraw s.bus s.wire s.pinTrace

theorem Clocked.trans {s t u : State} (h₁ : Clocked s t) (h₂ : Clocked t u) : Clocked s u := by
  obtain ⟨⟩ := h₁
  obtain ⟨⟩ := h₂
  exact .intro ..

theorem sendByte_clocked (s : State) (dc : Bool) (v : Byte) : Clocked s (s.sendByte dc v) := .intro ..

/-- The bytes of a list at one level of DC: `sendCommands` at 0 and `sendDatas` at 1. -/
def sendAll (dc : Bool) (bs : List Byte) : List MicroOp := bs.map (MicroOp.send dc)

theorem foldl_sendAll_clocked (dc : Bool) (bs : List Byte) (s : State) : Clocked s ((sendAll dc bs).foldl doOp s) := by
  induction bs generalizing s with
  | nil => exact .refl s
  | cons b bs ih => exact (sendByte_clocked s dc b).trans (ih _)

/-- After the last byte DC has its level and SCLK idles (41 R130, R131, R136). -/
theorem foldl_sendAll_levels (dc : Bool) {bs : List Byte} (hne : bs ≠ []) (s : State) :
    ((sendAll dc bs).foldl doOp s).dc = dc ∧ ((sendAll dc bs).foldl doOp s).sclk = s.params.pinFormat.clockIdle := by
  obtain ⟨bs, b, rfl⟩ := (List.eq_nil_or_concat bs).resolve_left hne
  simp [sendAll, doOp, foldl_doOp_params]

/-! ### Runs that the bus completes (41 R134, R136) -/

/-- The state `u` comes after `s` with just these events put on the wire and the pin sequences of their bytes on the pin trace. -/
structure Sent (s : State) (events : List WireEvent) (u : State) : Prop where
  wire : u.wire = s.wire ++ events
  pinTrace : u.pinTrace = s.pinTrace ++ framesOf s.params.pinFormat events
  params : u.params = s.params

theorem foldl_doOp_sent (ops : List MicroOp) (s : State) : Sent s (ops.flatMap eventsOf) (ops.foldl doOp s) :=
  ⟨foldl_doOp_wire ops s, foldl_doOp_pinTrace ops s, foldl_doOp_params ops s⟩

/-- The last lines of a command keep the pin trace and SCLK, and release SCE (41 R136, R138, 44 R210). -/
theorem Sent.apply_pins {s u : State} {events : List WireEvent} (h : Sent s events u)
    (hclk : u.sclk = s.params.pinFormat.clockIdle) (f : Finish) :
    (f.apply u).pinTrace = s.pinTrace ++ framesOf s.params.pinFormat events ∧
      (f.apply u).sclk = s.params.pinFormat.clockIdle ∧ (f.apply u).sce = !s.params.pinFormat.sceActive := by
  rw [← h.pinTrace, ← hclk, ← h.params]
  cases f <;> exact ⟨rfl, rfl, rfl⟩

theorem flatMap_initOps (s : State) : (initOps s.params).flatMap eventsOf = initFrame s := by
  rw [initOps, List.flatMap_cons, flatMap_sendCommands]
  rfl

theorem flatMap_syncOps (s : State) : (syncOps s).flatMap eventsOf = syncFrame s := by
  rw [syncOps, List.flatMap_append, flatMap_sendCommands, flatMap_sendDatas, State.fbBytes, List.map_map]
  rfl

/-- Where TRDY is 1 and the bus completes INIT_SEQ, INIT is the reset pulse, the bytes and its last lines. -/
theorem exec_init_completes {s : State} (htrdy : s.trdy = true) (hbus : s.busCompletes s.params.initSeq.length = true) :
    ∃ u, exec .init s = .next (Finish.init.apply u) ∧ Clocked s.resetPulse u ∧ Sent s (initFrame s) u ∧
      (s.params.initSeq ≠ [] → u.dc = false ∧ u.sclk = s.params.pinFormat.clockIdle) := by
  have hops : s.busCompletes (byteCount (initOps s.params)) = true := by simpa [initOps] using hbus
  have hsent := foldl_doOp_sent (initOps s.params) s
  rw [flatMap_initOps] at hsent
  exact ⟨_, congrArg Host.Outcome.next ((if_pos htrdy).trans (runOps_complete .init _ s hops)),
    foldl_sendAll_clocked false s.params.initSeq s.resetPulse, hsent, fun hne => foldl_sendAll_levels false hne s.resetPulse⟩

/-- Where the bus completes its bytes, SYNC is those bytes and its last lines. -/
theorem exec_sync_completes {s : State} (hbus : s.busCompletes (s.params.syncPreamble.length + 504) = true) :
    ∃ u, exec .sync s = .next (Finish.sync.apply u) ∧ Clocked s u ∧ Sent s (syncFrame s) u ∧
      u.dc = true ∧ u.sclk = s.params.pinFormat.clockIdle := by
  have hops : s.busCompletes (byteCount (syncOps s)) = true := by simpa [syncOps, byteCount_append] using hbus
  have hsent := foldl_doOp_sent (syncOps s) s
  rw [flatMap_syncOps] at hsent
  refine ⟨_, congrArg Host.Outcome.next (runOps_complete .sync _ s hops), ?_, hsent, ?_⟩
  · rw [syncOps, List.foldl_append]
    exact (foldl_sendAll_clocked false _ s).trans (foldl_sendAll_clocked true _ _)
  · have hne : s.fbBytes ≠ [] := List.ne_nil_of_length_pos (by simp)
    have hlevels := foldl_sendAll_levels true hne ((sendCommands s.params.syncPreamble).foldl doOp s)
    rw [foldl_doOp_params] at hlevels
    rw [syncOps, List.foldl_append]
    exact hlevels

/-! ### The statements -/

/-- Settles O39: without TRDY by the one test INIT makes; else the run completes, and only its last lines write INITED and
STATUS. -/
theorem initPulsesResetAndSendsTheSequence : Obligations.InitPulsesResetAndSendsTheSequence := by
  refine ⟨rfl, fun s => ⟨fun htrdy => ?_, fun htrdy hbus => ?_⟩⟩
  · exact congrArg Host.Outcome.next (if_neg (by simp [htrdy]))
  · obtain ⟨u, hexec, hclocked, hsent, hlevels⟩ := exec_init_completes htrdy hbus
    have hwire := hsent.wire
    have hdc := fun hne => (hlevels hne).1
    obtain ⟨⟩ := hclocked
    exact ⟨_, hexec, hwire, rfl, rfl, rfl, hdc, rfl⟩

/-- Settles O41: a run that the bus completes leaves the pin sequences of its bytes and, after its last one, the idle levels. -/
theorem initAndSyncDriveThePinFormat : Obligations.InitAndSyncDriveThePinFormat := by
  refine fun s => ⟨fun htrdy hne hbus => ?_, fun hbus => ?_⟩
  · obtain ⟨u, hexec, _, hsent, hlevels⟩ := exec_init_completes htrdy hbus
    exact ⟨_, hexec, hsent.apply_pins (hlevels hne).2 .init⟩
  · obtain ⟨u, hexec, _, hsent, _, hclk⟩ := exec_sync_completes hbus
    exact ⟨_, hexec, hsent.apply_pins hclk .sync⟩

/-- Settles O49: of the effects of an instruction only the runs of INIT and SYNC write these fields. -/
theorem onlyInitAndSyncReachTheWire : Obligations.OnlyInitAndSyncReachTheWire := by
  intro i s hinit hsync
  obtain ⟨t, hexec, heffect⟩ := exec_effect i s
  refine ⟨t, hexec, ?_⟩
  cases heffect with
  | initNotReady | initRun => exact absurd rfl hinit
  | syncRun => exact absurd rfl hsync
  | nop | refuse | store | readPixel | readByte | rejectLine | plotLine | moveCursor | writeAtCursor | writeAtPlace =>
    exact ⟨rfl, rfl, rfl, rfl, rfl, rfl, rfl, rfl, rfl, rfl⟩

end Sys2Proof.Machine
end

section
/-! SUPPORT. The cursor and the text commands (42_glyph_text.md): what one glyph cell, one character and a string do, each said
once, and the statements that follow. -/

namespace Sys2Proof.Machine

/-! ### The cursor registers (10 R11, 42 R151, R152) -/

/-- The origin check of GOTOXY, PUTCXY and PUTSXY (42 R152, R155, R156). -/
theorem originOk_iff (x page : Byte) : (xOk x && pageOk page) = true ↔ x.toNat ≤ 83 ∧ page.toNat ≤ 5 := by simp

theorem originOk_false {x page : Byte} (h : 83 < x.toNat ∨ 5 < page.toNat) : ¬(xOk x && pageOk page) = true := by
  rw [originOk_iff]
  omega

/-- The registers hold every cursor of 7 and 3 bits, a legal one or not. -/
theorem cursor_setCursor (s : State) {cur : Cursor} (hx : cur.x < 128) (hp : cur.page < 8) : (s.setCursor cur).cursor = cur := by
  simp [State.cursor, Nat.mod_eq_of_lt, hx, hp]

/-- The cursor determines the three registers. -/
theorem registers_of_cursor {s : State} {cur : Cursor} (h : s.cursor = cur) :
    s.cx = BitVec.ofNat 7 cur.x ∧ s.cp = BitVec.ofNat 3 cur.page ∧ s.cend = cur.past := by
  subst h
  simp [State.cursor]

/-- ADVANCE field by field, in the rule's own numbers (42 R151). -/
theorem advance_fields (x page : Nat) :
    (advance x page).x = (if x + 6 ≤ 83 then x + 6 else 0) ∧
      (advance x page).page = (if x + 6 ≤ 83 then page else if page < 5 then page + 1 else 5) ∧
      (advance x page).past = decide (83 < x + 6 ∧ 5 ≤ page) := by
  unfold advance
  by_cases hx : x + 6 ≤ 83
  · simp [hx]
  · by_cases hp : page < 5
    · simp [hx, hp]
    · simp [hx, hp]
      omega

/-- ADVANCE from a cursor that the registers can hold gives one that they can hold. -/
theorem cursor_setCursor_advance (s : State) (x : Nat) {page : Nat} (hp : page < 8) :
    (s.setCursor (advance x page)).cursor = advance x page := by
  obtain ⟨hx', hp', _⟩ := advance_fields x page
  refine cursor_setCursor s ?_ ?_
  · rw [hx']
    split <;> omega
  · rw [hp']
    split
    · exact hp
    · split <;> omega

/-! ### One glyph cell (42 R150) -/

/-- GLYPH_AT where it is refused. -/
theorem glyphAt_refused {p : Params} {x page : Nat} {c : Byte} (m : Memory)
    (h : c.toNat < p.fontFirst.toNat ∨ p.fontLast.toNat < c.toNat ∨ 504 < x + 84 * page + 6) : glyphAt p x page c m = none := by
  rcases glyphAt_cases p x page c m with ⟨_, hnone⟩ | ⟨_, _, _, _⟩
  · exact hnone
  · omega

/-- GLYPH_AT where the cell may be written. -/
theorem glyphAt_writes {p : Params} {x page : Nat} {c : Byte} (m : Memory) (h1 : p.fontFirst.toNat ≤ c.toNat)
    (h2 : c.toNat ≤ p.fontLast.toNat) (h3 : x + 84 * page + 6 ≤ 504) :
    glyphAt p x page c m = some (Memory.writeRun m (runOff x page) (cellBytes p c)) := by
  rcases glyphAt_cases p x page c m with ⟨_, _⟩ | ⟨_, _, _, hsome⟩
  · omega
  · exact hsome

/-- A written cell reads back byte for byte. -/
theorem read_cell_inside (era : Nat) (m : Memory) (p : Params) (c : Byte) {off k : Nat} (hfit : off + 6 ≤ 504) (hk : k < 6) :
    Memory.read era (Memory.writeRun m off (cellBytes p c)) (off + k) = (cellBytes p c).getD k 0#8 :=
  Memory.read_writeRun_inside era m (by rwa [cellBytes_length]) (by rwa [cellBytes_length])

/-- The first five bytes of a written cell are the columns of the character's font entry (10 R28). -/
theorem read_glyph (era : Nat) (m : Memory) {p : Params} {c : Byte} {off : Nat} (hwf : p.wf)
    (h1 : p.fontFirst.toNat ≤ c.toNat) (h2 : c.toNat ≤ p.fontLast.toNat) (hfit : off + 6 ≤ 504) :
    ∃ g, p.font[c.toNat - p.fontFirst.toNat]? = some g ∧
      Memory.read era (Memory.writeRun m off (cellBytes p c)) off = g.c0 ∧
      Memory.read era (Memory.writeRun m off (cellBytes p c)) (off + 1) = g.c1 ∧
      Memory.read era (Memory.writeRun m off (cellBytes p c)) (off + 2) = g.c2 ∧
      Memory.read era (Memory.writeRun m off (cellBytes p c)) (off + 3) = g.c3 ∧
      Memory.read era (Memory.writeRun m off (cellBytes p c)) (off + 4) = g.c4 := by
  obtain ⟨g, hg, hcell⟩ := cellBytes_of_font hwf h1 h2
  have hcol {k : Nat} (hk : k < 6) := read_cell_inside era m p c hfit hk
  rw [hcell] at hcol ⊢
  exact ⟨g, hg, hcol (k := 0) (by decide), hcol (k := 1) (by decide), hcol (k := 2) (by decide), hcol (k := 3) (by decide),
    hcol (k := 4) (by decide)⟩

/-! ### One character at a cursor (42 R153) -/

/-- The character is refused at the cursor: past the end, outside the font, or its cell passes index 503. -/
def charRefused (p : Params) (cur : Cursor) (c : Byte) : Prop :=
  cur.past = true ∨ c.toNat < p.fontFirst.toNat ∨ p.fontLast.toNat < c.toNat ∨ 504 < cur.x + 84 * cur.page + 6

theorem not_charRefused {p : Params} {cur : Cursor} {c : Byte} (h1 : cur.past = false) (h2 : p.fontFirst.toNat ≤ c.toNat)
    (h3 : c.toNat ≤ p.fontLast.toNat) (h4 : cur.x + 84 * cur.page + 6 ≤ 504) : ¬charRefused p cur c := by
  unfold charRefused
  rw [h1]
  simp only [Bool.false_eq_true, false_or]
  omega

/-- The pen after a character that is not refused. -/
def Pen.blit (p : Params) (pen : Pen) (c : Byte) : Pen :=
  { pen with
    cur := advance pen.cur.x pen.cur.page
    mem := Memory.writeRun pen.mem (runOff pen.cur.x pen.cur.page) (cellBytes p c) }

theorem put_refused {p : Params} {pen : Pen} {c : Byte} (h : charRefused p pen.cur c) : Pen.put p pen c = pen.refuse := by
  rcases put_cases p pen c with ⟨_, hput⟩ | ⟨h1, h2, h3, h4, _⟩
  · exact hput
  · exact absurd h (not_charRefused h1 h2 h3 h4)

theorem put_written {p : Params} {pen : Pen} {c : Byte} (h : ¬charRefused p pen.cur c) : Pen.put p pen c = pen.blit p c := by
  rcases put_cases p pen c with ⟨hrefused, _⟩ | ⟨_, _, _, _, hput⟩
  · exact absurd hrefused h
  · exact hput

/-- Past the end every character is refused, so a string leaves the cursor where it is. -/
theorem putAll_past (p : Params) (str : List Byte) {pen : Pen} (h : pen.cur.past = true) : (pen.putAll p str).cur = pen.cur := by
  induction str generalizing pen with
  | nil => rfl
  | cons c cs ih =>
    have hput : Pen.put p pen c = pen.refuse := put_refused (.inl h)
    calc
      (pen.putAll p (c :: cs)).cur = (pen.refuse.putAll p cs).cur := by rw [← hput]; rfl
      _ = pen.cur := ih h

/-! ### PUTC (42 R153) -/

/-- Take a pen's framebuffer, status and cursor: what PUTC and PUTS end with. -/
def State.takePen (s : State) (pen : Pen) : State := (s.setCursor pen.cur).takeInk pen

theorem exec_puts (str : List Byte) (s : State) : exec (.puts str) s = .next (s.takePen (s.cursorPen str)) := rfl

theorem exec_putc (c : Byte) (s : State) : exec (.putc c) s = .next (afterPutc s c) := rfl

/-- PUTC is a string of one character. -/
theorem afterPutc_eq (s : State) (c : Byte) : afterPutc s c = s.takePen (Pen.put s.params (s.penAt s.cursor) c) := rfl

theorem afterPutc_refused {s : State} {c : Byte} (h : charRefused s.params s.cursor c) : afterPutc s c = s.raise .oob := by
  rw [afterPutc_eq, put_refused h]
  exact congrArg (State.raise .oob) (setCursor_cursor s)

theorem afterPutc_written {s : State} {c : Byte} (h : ¬charRefused s.params s.cursor c) :
    afterPutc s c = s.takePen ((s.penAt s.cursor).blit s.params c) := by
  rw [afterPutc_eq, put_written h]

/-- The registers hold the cursor of the pen that PUTC ends with. -/
theorem cursor_afterPutc (s : State) (c : Byte) :
    (afterPutc s c).cursor = (Pen.put s.params (s.penAt s.cursor) c).cur := by
  by_cases h : charRefused s.params s.cursor c
  · rw [afterPutc_refused h, put_refused h]
    rfl
  · rw [afterPutc_written h, put_written h]
    exact cursor_setCursor_advance s _ s.cp.isLt

/-! ### A string as its characters one by one (42 R154) -/

/-- A pen whose string comes after an outcome `first`: a failure there is the one that counts. -/
def Pen.after (first : Status) (pen : Pen) : Pen := { pen with status := if first = .pass then pen.status else first }

theorem refuse_after (first : Status) (pen : Pen) : (pen.after first).refuse = pen.refuse.after first := by
  unfold Pen.after Pen.refuse
  by_cases h : first = .pass <;> simp [h]

/-- An earlier outcome makes no difference to what a character does to the cursor and the framebuffer. -/
theorem put_after (p : Params) (first : Status) (pen : Pen) (c : Byte) :
    Pen.put p (pen.after first) c = (Pen.put p pen c).after first := by
  by_cases h : charRefused p pen.cur c
  · rw [put_refused h, put_refused (pen := pen.after first) h, refuse_after]
  · rw [put_written h, put_written (pen := pen.after first) h]
    rfl

theorem putAll_after (p : Params) (first : Status) (pen : Pen) (str : List Byte) :
    (pen.after first).putAll p str = (pen.putAll p str).after first :=
  List.foldl_hom (Pen.after first) (fun pen c => put_after p first pen c)

/-- A pen is a fresh one at its cursor and framebuffer, after its status. -/
theorem penAt_after {u : State} {pen : Pen} (hcur : u.cursor = pen.cur) (hmem : u.fb = pen.mem) :
    (u.penAt u.cursor).after pen.status = pen := by
  obtain ⟨status, cur, mem⟩ := pen
  subst hcur hmem
  cases status <;> rfl

/-- A string is its first character, then the rest of it from the state that PUTC leaves. -/
theorem cursorPen_cons (s : State) (c : Byte) (cs : List Byte) :
    s.cursorPen (c :: cs) = ((afterPutc s c).cursorPen cs).after (Pen.put s.params (s.penAt s.cursor) c).status := by
  have hstart := penAt_after (pen := Pen.put s.params (s.penAt s.cursor) c) (cursor_afterPutc s c) rfl
  calc
    s.cursorPen (c :: cs) = (Pen.put s.params (s.penAt s.cursor) c).putAll s.params cs := rfl
    _ = (((afterPutc s c).penAt (afterPutc s c).cursor).after _).putAll s.params cs := by rw [hstart]
    _ = _ := putAll_after _ _ _ _

theorem code_eq_zero_iff (st : Status) : st.code = 0#8 ↔ st = .pass := by cases st <;> decide

/-- STATUS of a string is that of the first PUTC that fails. -/
theorem cursorPen_status (str : List Byte) (s : State) :
    (s.cursorPen str).status.code = ((putcStatuses s str).find? (fun v => v != 0#8)).getD 0#8 := by
  induction str generalizing s with
  | nil => rfl
  | cons c cs ih =>
    have hfirst : (afterPutc s c).status = (Pen.put s.params (s.penAt s.cursor) c).status.code := rfl
    rw [cursorPen_cons, putcStatuses, hfirst]
    by_cases h : (Pen.put s.params (s.penAt s.cursor) c).status = .pass
    · have hpass : Status.pass.code = 0#8 := rfl
      simp [Pen.after, h, hpass, ih]
    · have hne := mt (code_eq_zero_iff _).mp h
      simp [Pen.after, h, hne]

/-- But for STATUS, a string leaves what PUTC of its characters one by one leaves. -/
theorem takePen_cursorPen (str : List Byte) (s : State) :
    s.takePen (s.cursorPen str) = { afterPutcs s str with status := (s.cursorPen str).status.code } := by
  induction str generalizing s with
  | nil => exact congrArg State.pass (setCursor_cursor s)
  | cons c cs ih =>
    have hrest : s.takePen (s.cursorPen (c :: cs)) =
        { (afterPutc s c).takePen ((afterPutc s c).cursorPen cs) with status := (s.cursorPen (c :: cs)).status.code } := by
      rw [cursorPen_cons]
      rfl
    rw [hrest, ih]
    rfl

/-! ### A display full of characters (42 R160) -/

/-- The cursor after `n` characters from (0, 0), up to the 84 that the display holds: 14 cells a page. -/
def cellCursor (n : Nat) : Cursor := if n < 84 then ⟨6 * (n % 14), n / 14, false⟩ else ⟨0, 5, true⟩

theorem advance_cellCursor {n : Nat} (hn : n < 84) : advance (6 * (n % 14)) (n / 14) = cellCursor (n + 1) := by
  unfold advance cellCursor
  by_cases hrow : 6 * (n % 14) + 6 ≤ 83
  · have hcol : 6 * (n % 14) + 6 = 6 * ((n + 1) % 14) := by omega
    have hpage : n / 14 = (n + 1) / 14 := by omega
    rw [if_pos hrow, if_pos (by omega), ← hpage, ← hcol]
  · rw [if_neg hrow]
    by_cases hpage : n / 14 < 5
    · have hcol : 0 = 6 * ((n + 1) % 14) := by omega
      have hnext : n / 14 + 1 = (n + 1) / 14 := by omega
      rw [if_pos hpage, if_pos (by omega), ← hnext, ← hcol]
    · rw [if_neg hpage, if_neg (by omega)]

/-- `t` is `s` with the characters of `str` typed from (0, 0) on, each in its cell of six bytes. -/
structure Filled (s : State) (str : List Byte) (t : State) : Prop where
  params : t.params = s.params
  cursor : t.cursor = cellCursor str.length
  cells : ∀ (j : Nat) (c : Byte), str[j]? = some c → ∀ k, k < 6 → t.fbRead (6 * j + k) = (cellBytes s.params c).getD k 0#8
  rest : ∀ a, 6 * str.length ≤ a → t.fbRead a = s.fbRead a
  passed : str ≠ [] → t.status = 0#8

theorem Filled.putc {s t : State} {str : List Byte} {c : Byte} (h : Filled s str t) (hlen : str.length < 84)
    (h1 : s.params.fontFirst.toNat ≤ c.toNat) (h2 : c.toNat ≤ s.params.fontLast.toNat) :
    Filled s (str ++ [c]) (afterPutc t c) := by
  have hcur : t.cursor = ⟨6 * (str.length % 14), str.length / 14, false⟩ := h.cursor.trans (if_pos hlen)
  obtain ⟨hx, hp, hcend⟩ : t.cx.toNat = 6 * (str.length % 14) ∧ t.cp.toNat = str.length / 14 ∧ t.cend = false := by
    simpa [State.cursor] using hcur
  have hoff : t.cx.toNat + 84 * t.cp.toNat = 6 * str.length := by omega
  have hfit : 6 * str.length + 6 ≤ 504 := by omega
  have hok : ¬charRefused t.params t.cursor c :=
    not_charRefused hcend (h.params ▸ h1) (h.params ▸ h2) (hoff ▸ hfit)
  have hread (a : Nat) : (afterPutc t c).fbRead a =
      Memory.read t.fbEra (Memory.writeRun t.fb (6 * str.length) (cellBytes s.params c)) a := by
    rw [afterPutc_written hok, ← hoff, ← h.params]
    rfl
  obtain ⟨_, _, hframe⟩ := read_cell t.fbEra t.fb _ s.params c hfit
  refine ⟨?_, ?_, fun j d hj k hk => ?_, fun a ha => ?_, fun _ => ?_⟩
  · rw [afterPutc_written hok]
    exact h.params
  · have hadvance : (afterPutc t c).cursor = advance t.cx.toNat t.cp.toNat := by
      rw [cursor_afterPutc, put_written hok]
      rfl
    rw [hadvance, hx, hp, advance_cellCursor hlen, List.length_append, List.length_singleton]
  · rw [hread]
    by_cases hlast : j < str.length
    · rw [hframe _ (by omega)]
      rw [List.getElem?_append_left hlast] at hj
      exact h.cells j d hj k hk
    · have hj' : j < (str ++ [c]).length := (List.getElem?_eq_some_iff.mp hj).1
      obtain rfl : j = str.length := by
        rw [List.length_append, List.length_singleton] at hj'
        omega
      obtain rfl : c = d := by simpa using hj
      exact read_cell_inside _ _ _ _ hfit hk
  · have ha' : 6 * str.length + 6 ≤ a := by simpa [Nat.mul_add] using ha
    rw [hread, hframe a (.inr ha')]
    exact h.rest a (by omega)
  · rw [afterPutc_written hok]
    rfl

/-- Up to 84 characters of the font fill the cells from the first on. -/
theorem filled_afterPutcs {s : State} {str : List Byte} (hcur : s.cursor = ⟨0, 0, false⟩)
    (hfont : ∀ c ∈ str, s.params.fontFirst.toNat ≤ c.toNat ∧ c.toNat ≤ s.params.fontLast.toNat) (hlen : str.length ≤ 84) :
    Filled s str (afterPutcs s str) := by
  induction str using List.reverseRecOn with
  | nil => exact ⟨rfl, hcur, by simp, fun _ _ => rfl, by simp⟩
  | append_singleton str c ih =>
    have hlen' : str.length < 84 := by simpa using hlen
    have h := ih (fun d hd => hfont d (List.mem_append_left _ hd)) hlen'.le
    obtain ⟨h1, h2⟩ := hfont c (by simp)
    rw [afterPutcs, List.foldl_concat]
    exact h.putc hlen' h1 h2

/-- The six bytes of a typed character's cell, in the order of 42 R150. -/
theorem Filled.cell {s t : State} {str : List Byte} (h : Filled s str t) {j : Nat} {c : Byte} (hj : str[j]? = some c) :
    (List.range 6).map (fun k => t.fbRead (6 * (j % 14) + 84 * (j / 14) + k)) = cellBytes s.params c := by
  have hoff : 6 * (j % 14) + 84 * (j / 14) = 6 * j := by omega
  rw [hoff]
  refine List.ext_getElem (by simp) fun k hk hk' => ?_
  rw [List.getElem_map, List.getElem_range, List.getElem_eq_getD 0#8]
  exact h.cells j c hj k (by simpa using hk)

/-! ### The statements -/

/-- Settles O50: of the effects of an instruction only those of GOTOXY, PUTC and PUTS write the cursor. -/
theorem onlyThreeCommandsMoveTheCursor : Obligations.OnlyThreeCommandsMoveTheCursor := by
  intro i s t hgotoxy hputc hputs h
  cases effect_of_exec h with
  | moveCursor => exact absurd rfl (hgotoxy _ _)
  | writeAtCursor hi =>
    rcases hi with rfl | ⟨c, rfl⟩
    · exact absurd rfl (hputs _)
    · exact absurd rfl (hputc _)
  | initRun | syncRun => simp
  | nop | refuse | store | readPixel | readByte | rejectLine | plotLine | writeAtPlace | initNotReady => exact ⟨rfl, rfl, rfl⟩

/-- Settles O26: past the end PUTC and PUTS refuse every character, and no other instruction but GOTOXY writes the cursor. -/
theorem gotoxyMovesTheCursor : Obligations.GotoxyMovesTheCursor := by
  refine ⟨fun i s t hs hgotoxy h => ?_, fun s x page => ⟨rfl, fun hbad => ?_, fun hx hp => ?_⟩⟩
  · cases effect_of_exec h with
    | moveCursor => exact absurd rfl (hgotoxy _ _)
    | writeAtCursor => exact (congrArg Cursor.past (putAll_past _ _ hs)).trans hs
    | initRun | syncRun => simpa using hs
    | nop | refuse | store | readPixel | readByte | rejectLine | plotLine | writeAtPlace | initNotReady => exact hs
  · exact congrArg Host.Outcome.next (if_neg (originOk_false hbad))
  · refine ⟨_, congrArg Host.Outcome.next (if_pos ((originOk_iff x page).mpr ⟨hx, hp⟩)), ?_, ?_, rfl⟩
    · exact Nat.mod_eq_of_lt (Nat.lt_of_le_of_lt hx (by decide))
    · exact Nat.mod_eq_of_lt (Nat.lt_of_le_of_lt hp (by decide))

/-- Settles O27: the two cases of one character at the cursor, with the cell read back and ADVANCE field by field. -/
theorem putcBlitsAndAdvances : Obligations.PutcBlitsAndAdvances := by
  refine fun s c => ⟨rfl, fun h => ?_, fun h1 h2 h3 h4 => ?_⟩
  · exact congrArg Host.Outcome.next (afterPutc_refused h)
  · have hexec := exec_putc c s
    have hcur := cursor_afterPutc s c
    rw [put_written (not_charRefused h1 h2 h3 h4)] at hcur
    rw [afterPutc_written (not_charRefused h1 h2 h3 h4)] at hexec hcur
    obtain ⟨hx, hp, hpast⟩ := advance_fields s.cx.toNat s.cp.toNat
    obtain ⟨_, hblank, hframe⟩ := read_cell s.fbEra s.fb _ s.params c h4
    exact ⟨_, hexec, fun hwf => read_glyph s.fbEra s.fb hwf h2 h3 h4, hblank, hframe, (congrArg Cursor.x hcur).trans hx,
      (congrArg Cursor.page hcur).trans hp, hpast, rfl⟩

/-- Settles O28: the cursor and the framebuffer are those of the PUTCs, and the first failure's status is kept. -/
theorem putsIsPutcOfEachByte : Obligations.PutsIsPutcOfEachByte := by
  refine fun s str => ⟨rfl, ?_⟩
  rw [exec_puts, takePen_cursorPen, cursorPen_status]

/-- Settles O29: the origin check, then the two cases of GLYPH_AT. -/
theorem putcxyBlitsWithoutTheCursor : Obligations.PutcxyBlitsWithoutTheCursor := by
  refine fun s x page c => ⟨rfl, fun h => ?_, fun hx hp h1 h2 h3 => ?_⟩
  · by_cases horigin : (xOk x && pageOk page) = true
    · obtain ⟨hx, hp⟩ := (originOk_iff x page).mp horigin
      refine congrArg Host.Outcome.next ((if_pos horigin).trans ?_)
      rw [glyphAt_refused s.fb (by omega)]
      rfl
    · exact congrArg Host.Outcome.next (if_neg horigin)
  · have hexec : exec (.putcxy x page c) s =
        .next (s.setFb (Memory.writeRun s.fb (runOff x.toNat page.toNat) (cellBytes s.params c))).pass := by
      refine congrArg Host.Outcome.next ((if_pos ((originOk_iff x page).mpr ⟨hx, hp⟩)).trans ?_)
      rw [glyphAt_writes s.fb h1 h2 h3]
    obtain ⟨_, hblank, hframe⟩ := read_cell s.fbEra s.fb _ s.params c h3
    exact ⟨_, hexec, fun hwf => read_glyph s.fbEra s.fb hwf h1 h2 h3, hblank, hframe⟩

/-- Settles O30: the registers hold the temporary cursor, so PUTS from there moves the same pen. -/
theorem putsxyIsPutsAtATemporaryCursor : Obligations.PutsxyIsPutsAtATemporaryCursor := by
  refine fun s x page str => ⟨rfl, fun h => ?_, fun hx hp => ?_⟩
  · exact congrArg Host.Outcome.next (if_neg (originOk_false h))
  · have hcur := cursor_setCursor s (cur := ⟨x.toNat, page.toNat, false⟩) (Nat.lt_of_le_of_lt hx (by decide))
      (Nat.lt_of_le_of_lt hp (by decide))
    refine ⟨_, exec_puts str _, congrArg Host.Outcome.next ((if_pos ((originOk_iff x page).mpr ⟨hx, hp⟩)).trans ?_)⟩
    rw [← hcur]
    rfl

/-- Settles O31: each character of the font fills the next cell, and the 84th takes the cursor past the end. -/
theorem displayHoldsEightyFourCells : Obligations.DisplayHoldsEightyFourCells := by
  intro s str hcx hcp hcend hfont
  have hcur : s.cursor = ⟨0, 0, false⟩ := by simp [State.cursor, hcx, hcp, hcend]
  have hfilled := filled_afterPutcs hcur hfont
  refine ⟨fun hlen hwf j c hj => ?_, fun hlen => (hfilled hlen).rest, fun hlen => ?_, fun hlen => ?_⟩
  · obtain ⟨h1, h2⟩ := hfont c (List.mem_of_getElem? hj)
    obtain ⟨g, hg, hcell⟩ := cellBytes_of_font hwf h1 h2
    exact ⟨g, hg, ((hfilled hlen).cell hj).trans hcell⟩
  · have h := (hfilled (by omega)).cursor
    rw [hlen] at h
    exact registers_of_cursor h
  · have h := hfilled hlen.le
    have hend := h.cursor
    rw [hlen] at hend
    obtain ⟨hx, hp, hpast⟩ := registers_of_cursor hend
    refine ⟨hx, hp, hpast, h.passed (List.ne_nil_of_length_pos (by omega)), fun c => ?_⟩
    exact congrArg Host.Outcome.next (afterPutc_refused (.inl hpast))

end Sys2Proof.Machine
end

section
/-! SUPPORT. The line rasterizer (43_line_rasterizer.md): its integer form against exact rationals, the shape of its
natural samples, and what LINE leaves behind. -/

namespace Sys2Proof.Machine

/-! ### The integer form and the rational form (43 R193) -/

/-- Both sample rules of R193 in one: a parameter `n / d` clears its denominators to a floor division by `16 * d`. -/
theorem rnd_sample (a0 da : Int) (n : Nat) {d : Nat} (hd : d ≠ 0) :
    rnd ((a0 : Rat) / 16 + (n : Rat) / d * ((da : Rat) / 16)) = (a0 * d + n * da + 8 * d) / (16 * d) := by
  have hd' : (d : Rat) ≠ 0 := Nat.cast_ne_zero.mpr hd
  have hsum : (a0 : Rat) / 16 + (n : Rat) / d * ((da : Rat) / 16) + 1 / 2 =
      ((a0 * d + n * da + 8 * d : Int) : Rat) / ((16 * d : Nat) : Rat) := by
    push_cast
    field_simp
    ring
  rw [rnd, hsum]
  exact Rat.floor_intCast_div_natCast _ _

theorem coord_sub (w v : Half) : coord w - coord v = ((q16 w - q16 v : Int) : Rat) / 16 := by
  rw [coord, coord, Int.cast_sub, sub_div]

/-- The stepping axis is the longer one (43 R182). -/
theorem abs_ddom (dx dy : Rat) : |ddom dx dy| = max |dx| |dy| := by
  unfold ddom
  split
  case isTrue hx => simp [hx]
  case isFalse =>
    split
    case isTrue hy => simp [hy]
    case isFalse =>
      split
      case isTrue h => exact (max_eq_left h).symm
      case isFalse h => exact (max_eq_right (le_of_not_ge h)).symm

theorem abs_ddom_raw (da db : Int) : |ddom ((da : Rat) / 16) ((db : Rat) / 16)| = (max da.natAbs db.natAbs : Nat) / 16 := by
  rw [abs_ddom, abs_div, abs_div, max_div_div_right (abs_nonneg 16)]
  simp [Nat.cast_natAbs]

/-- K of R184 is K of R193. -/
theorem stepCount_raw (da db : Int) : stepCount ((da : Rat) / 16) ((db : Rat) / 16) = max da.natAbs db.natAbs / 16 := by
  rw [stepCount, abs_ddom_raw]
  exact congrArg Int.toNat (Rat.floor_natCast_div_natCast _ 16)

theorem naturalCount_eq (m : Nat) : naturalCount m = m / 16 + 1 := rfl

/-- A subdivided line has at least two samples, so its divisor is not 0 (43 R189). -/
theorem pred_ne_zero_of_subdivided {m mindots : Nat} (h : ¬mindots ≤ naturalCount m) : mindots - 1 ≠ 0 := by
  rw [naturalCount_eq] at h
  omega

/-- The parameters of R184, R187 and R189 over raw deltas, as the quotients that `rnd_sample` takes. -/
theorem samples_raw (da db : Int) (mindots : Nat) :
    samples ((da : Rat) / 16) ((db : Rat) / 16) mindots =
      if da = 0 ∧ db = 0 then [0]
      else if mindots ≤ naturalCount (max da.natAbs db.natAbs) then
        (List.range (naturalCount (max da.natAbs db.natAbs))).map
          (fun k : Nat => ((16 * k : Nat) : Rat) / (max da.natAbs db.natAbs : Nat))
      else (List.range mindots).map (fun i : Nat => (i : Rat) / (mindots - 1 : Nat)) := by
  have hzero (d : Int) : (d : Rat) / 16 = 0 ↔ d = 0 := by simp
  simp only [samples, hzero, stepCount_raw, abs_ddom_raw, ← naturalCount_eq]
  refine if_congr Iff.rfl rfl ?_
  split
  case isTrue =>
    refine List.map_congr_left fun k _ => ?_
    rw [div_div_eq_mul_div]
    push_cast
    ring
  case isFalse h =>
    rw [Nat.cast_pred (Nat.pos_of_ne_zero fun h0 => pred_ne_zero_of_subdivided h (by rw [h0]))]

theorem rnd_zero_length (a0 da : Int) : rnd ((a0 : Rat) / 16 + 0 * ((da : Rat) / 16)) = zeroCoord a0 := by
  simpa [zeroCoord] using rnd_sample a0 da 0 one_ne_zero

theorem rnd_natural (a0 da : Int) (k : Nat) {m : Nat} (hm : m ≠ 0) :
    rnd ((a0 : Rat) / 16 + ((16 * k : Nat) : Rat) / m * ((da : Rat) / 16)) = naturalCoord a0 da m k := by
  rw [rnd_sample a0 da (16 * k) hm, naturalCoord, Nat.cast_mul, Nat.cast_ofNat]

theorem rnd_subdivided (a0 da : Int) (i : Nat) {q : Nat} (hq : q ≠ 0) :
    rnd ((a0 : Rat) / 16 + (i : Rat) / q * ((da : Rat) / 16)) = subdividedCoord a0 da q i := rnd_sample a0 da i hq

/-- Settles O33: each sample clears its denominators, in each of the three modes. -/
theorem lineIntegerFormIsExact : Obligations.LineIntegerFormIsExact := by
  intro x0 y0 x1 y1 mindots
  rw [linePoints_eq, samplePoints, coord_sub, coord_sub, coord, coord, samples_raw]
  refine congrArg some ?_
  split
  case isTrue => simp only [List.map_cons, List.map_nil, rnd_zero_length]
  case isFalse hlong =>
    have hm : max (q16 x1 - q16 x0).natAbs (q16 y1 - q16 y0).natAbs ≠ 0 := by omega
    rw [steppedPoints]
    split
    case isTrue => simp only [List.map_map, Function.comp_def, rnd_natural _ _ _ hm, naturalPoints]
    case isFalse hn =>
      simp only [List.map_map, Function.comp_def, rnd_subdivided _ _ _ (pred_ne_zero_of_subdivided hn), subdividedPoints]

/-! ### The natural samples (43 R190, R196) -/

/-- Settles O37: the numerator and the divisor share the factor `|d|`, and what is left moves by 16 a sample. -/
theorem naturalSamplesStepByOnePixel : Obligations.NaturalSamplesStepByOnePixel := by
  intro a0 d k hd
  have hpos : (0 : Int) < d.natAbs := by omega
  calc naturalCoord a0 d d.natAbs k
      = (d.natAbs * (a0 + 8 + 16 * (k * d.sign))) / (d.natAbs * 16) := by
        unfold naturalCoord
        congr 1
        · linear_combination (-16 * (k : Int)) * Int.sign_mul_natAbs d
        · ring
    _ = (a0 + 8 + 16 * (k * d.sign)) / 16 := Int.mul_ediv_mul_of_pos _ _ hpos
    _ = (a0 + 8) / 16 + k * d.sign := Int.add_mul_ediv_left _ _ (by decide)

/-- Where the stepping axis spans whole units, sample `k` from the far end is sample `K - k` (43 R196 (d)). -/
theorem naturalCoord_reversed (a0 da : Int) {m j k : Nat} (h : 16 * (j + k) = m) :
    naturalCoord (a0 + da) (-da) m k = naturalCoord a0 da m j := by
  subst h
  unfold naturalCoord
  congr 1
  push_cast
  ring

theorem naturalPoints_reversed (a0 b0 da db : Int) {m : Nat} (h : m % 16 = 0) :
    naturalPoints (a0 + da) (b0 + db) (-da) (-db) m = (naturalPoints a0 b0 da db m).reverse := by
  refine List.ext_getElem (by simp [naturalPoints]) fun k hk _ => ?_
  simp only [naturalPoints, naturalCount, List.length_map, List.length_range] at hk
  have hm : 16 * ((m / 16 - k) + k) = m := by omega
  simp [naturalPoints, naturalCount, naturalCoord_reversed _ _ hm]

/-- Up to n_nat the samples are the natural ones (43 R189). -/
theorem steppedPoints_natural (a0 b0 da db : Int) {m mindots : Nat} (h : mindots ≤ m / 16 + 1) :
    steppedPoints a0 b0 da db m mindots = naturalPoints a0 b0 da db m := if_pos h

theorem rawLength_eq (x0 y0 x1 y1 : Half) :
    rawLength x0 y0 x1 y1 = max (q16 x1 - q16 x0).natAbs (q16 y1 - q16 y0).natAbs := rfl

/-- Settles O38: in natural mode by the reversed natural samples; a zero-length segment has one. -/
theorem reversedSegmentPlotsTheSamePixels : Obligations.ReversedSegmentPlotsTheSamePixels := by
  intro x0 y0 x1 y1 mindots hwhole hnat
  rw [rawLength_eq] at hwhole hnat
  have hrev := naturalPoints_reversed (q16 x0) (q16 y0) (q16 x1 - q16 x0) (q16 y1 - q16 y0) hwhole
  rw [add_sub_cancel, add_sub_cancel] at hrev
  rw [linePoints_eq, linePoints_eq, ← neg_sub (q16 x1), ← neg_sub (q16 y1), Int.natAbs_neg, Int.natAbs_neg,
    steppedPoints_natural _ _ _ _ hnat, steppedPoints_natural _ _ _ _ hnat, hrev, Option.map_some, apply_ite List.reverse]
  refine congrArg some (if_ctx_congr (and_congr neg_eq_zero neg_eq_zero) (fun ⟨hx, hy⟩ => ?_) fun _ => rfl)
  rw [List.reverse_singleton, sub_eq_zero.mp hx, sub_eq_zero.mp hy]

/-! ### What LINE does (43 R191, R192) -/

/-- Everything LINE can do, over its points: one outside the panel rejects it, else all are set and counted. -/
theorem exec_line_cases {x0 y0 x1 y1 mindots : Half} {ps : List Point} (hps : linePoints x0 y0 x1 y1 mindots = some ps)
    (s : State) :
    ((∃ p ∈ ps, inBox p = false) ∧ exec (.line x0 y0 x1 y1 mindots) s = .next { s with lncnt := 0#16, status := 2#8 }) ∨
    ((∀ p ∈ ps, inBox p = true) ∧ exec (.line x0 y0 x1 y1 mindots) s =
      .next { s with fb := Memory.plot s.fbEra s.fb ps, lncnt := BitVec.ofNat 16 ps.length, status := 0#8 }) := by
  obtain ⟨qs, hqs, h⟩ := execLine_cases x0 y0 x1 y1 mindots s
  obtain rfl : qs = ps := Option.some.inj (hqs.symm.trans hps)
  exact h

theorem inBox_eq_false {p : Point} : inBox p = false ↔ p.1 < 0 ∨ 83 < p.1 ∨ p.2 < 0 ∨ 47 < p.2 := by
  rw [← Bool.not_eq_true, inBox_iff]
  omega

/-- Settles O32: the points are the rational samples, and each clause holds in its own case of LINE. -/
theorem linePlotsTheRationalSamples : Obligations.LinePlotsTheRationalSamples := by
  rintro s x0 y0 x1 y1 mindots ps rfl
  obtain ⟨⟨q, hq, hqout⟩, hexec⟩ | ⟨hbox, hexec⟩ := exec_line_cases (lineIntegerFormIsExact x0 y0 x1 y1 mindots) s
  · refine ⟨rfl, fun _ => hexec, fun hin => ?_⟩
    cases hqout.symm.trans ((inBox_iff q).mpr (hin q hq))
  · refine ⟨rfl, fun ⟨p, hp, hout⟩ => ?_, fun _ => ⟨_, hexec, fun x y hx _ => pixel_plot s.fbEra hbox hx, fun a ha =>
      read_plot_outside s.fbEra hbox ha⟩⟩
    cases (inBox_eq_false.mpr hout).symm.trans (hbox p hp)

/-- Settles O34: both cases of LINE set another STATUS. -/
theorem lineNeverDividesByZero : Obligations.LineNeverDividesByZero := by
  intro s x0 y0 x1 y1 mindots
  obtain ⟨_, hexec⟩ | ⟨_, hexec⟩ := exec_line_cases (linePoints_eq x0 y0 x1 y1 mindots) s
  · exact ⟨_, hexec, show 2#8 ≠ 1#8 by decide⟩
  · exact ⟨_, hexec, show 0#8 ≠ 1#8 by decide⟩

/-- Settles O36: the case that commits sets STATUS 0. -/
theorem rejectedLineIsANoOp : Obligations.RejectedLineIsANoOp := by
  intro s t x0 y0 x1 y1 mindots h hfail
  obtain ⟨_, hexec⟩ | ⟨_, hexec⟩ := exec_line_cases (linePoints_eq x0 y0 x1 y1 mindots) s <;>
    obtain rfl := Host.Outcome.next.inj (h.symm.trans hexec)
  · rfl
  · exact absurd rfl hfail

/-- Equal operands are equal points (30 R62). -/
theorem q16_sub_eq_zero {w v : Half} : q16 w - q16 v = 0 ↔ v = w := by
  rw [sub_eq_zero, q16, q16, BitVec.toInt_inj, eq_comm]

theorem q16_sub_natAbs_lt (w v : Half) : (q16 w - q16 v).natAbs < 65536 := by
  have hw := w.toInt_lt
  have hw' := w.le_toInt
  have hv := v.toInt_lt
  have hv' := v.le_toInt
  unfold q16
  omega

/-- The number of points LINE computes (43 R187, R195). -/
theorem linePoints_length {x0 y0 x1 y1 mindots : Half} {ps : List Point} (hps : linePoints x0 y0 x1 y1 mindots = some ps) :
    ps.length = if x0 = x1 ∧ y0 = y1 then 1 else max (rawLength x0 y0 x1 y1 / 16 + 1) mindots.toNat := by
  rw [linePoints_eq, Option.some_inj] at hps
  rw [← hps, apply_ite List.length, steppedPoints_length, List.length_singleton, rawLength_eq]
  exact if_congr (and_congr q16_sub_eq_zero q16_sub_eq_zero) rfl rfl

/-- 16 bits hold the number of points (log 16). -/
theorem linePoints_length_lt {x0 y0 x1 y1 mindots : Half} {ps : List Point}
    (hps : linePoints x0 y0 x1 y1 mindots = some ps) : ps.length < 65536 := by
  have hx := q16_sub_natAbs_lt x1 x0
  have hy := q16_sub_natAbs_lt y1 y0
  have hn := mindots.isLt
  rw [linePoints_length hps, rawLength_eq]
  split <;> omega

/-- Settles O35: LNCNT is the number of points, which 16 bits hold. -/
theorem lncntMeetsMindots : Obligations.LncntMeetsMindots := by
  intro s t x0 y0 x1 y1 mindots h hpass
  have hps := lineIntegerFormIsExact x0 y0 x1 y1 mindots
  rw [← linePoints_length hps]
  obtain ⟨_, hexec⟩ | ⟨_, hexec⟩ := exec_line_cases hps s <;> obtain rfl := Host.Outcome.next.inj (h.symm.trans hexec)
  · cases hpass
  · exact Nat.mod_eq_of_lt (linePoints_length_lt hps)

end Sys2Proof.Machine
end

section
/-! SUPPORT. Display synchronisation (44_display_sync.md): what decides the events of a SYNC, and the statements that follow. -/

namespace Sys2Proof.Machine

/-- The events of a SYNC are read off the preamble and the 504 bytes (44 R213). -/
theorem syncFrame_congr {s s' : State} (hfb : ∀ i, i < 504 → s.fbRead i = s'.fbRead i)
    (hpre : s.params.syncPreamble = s'.params.syncPreamble) : syncFrame s = syncFrame s' := by
  have hdata : (List.range 504).map (fun i => WireEvent.byte true (s.fbRead i)) =
      (List.range 504).map (fun i => WireEvent.byte true (s'.fbRead i)) :=
    List.map_congr_left fun i hi => congrArg (WireEvent.byte true) (hfb i (List.mem_range.mp hi))
  rw [syncFrame, syncFrame, hpre, hdata]

/-- Settles O40: the run completes with DC as its last byte left it, and only the last lines write STATUS. -/
theorem syncStreamsTheFramebuffer : Obligations.SyncStreamsTheFramebuffer := by
  refine ⟨rfl, fun s hbus => ?_⟩
  obtain ⟨u, hexec, hclocked, hsent, hdc, _⟩ := exec_sync_completes hbus
  have hwire := hsent.wire
  obtain ⟨⟩ := hclocked
  exact ⟨_, hexec, hwire, rfl, hdc, rfl⟩

/-- Settles O42: each run completes and appends its frame, and the two frames are one. -/
theorem syncIsAFunctionOfTheFramebuffer : Obligations.SyncIsAFunctionOfTheFramebuffer := by
  intro s s' hfb hpre hbus hbus'
  obtain ⟨u, hexec, _, hsent, _⟩ := exec_sync_completes hbus
  obtain ⟨u', hexec', _, hsent', _⟩ := exec_sync_completes (hpre ▸ hbus')
  rw [← syncFrame_congr hfb hpre] at hsent'
  exact ⟨_, _, _, hexec, hexec', hsent.wire, hsent'.wire⟩

end Sys2Proof.Machine
end

section
/-! SUPPORT. Errors (60_exceptions.md): that the machine always has a next state, that a command that fails leaves the state as it
was, and the statements that follow. -/

namespace Sys2Proof.Machine

theorem exec_next (i : Instr) (s : State) : ∃ t, exec i s = .next t :=
  (exec_effect i s).imp fun _ h => h.1

/-- However many events an idle engine takes, it ends in a next state: it waits, is reset, or runs a command (60 R228, log 20). -/
theorem takeInput_next (es : List PortEvent) (s : State) : ∃ t, takeInput es s = .next t := by
  induction es generalizing s with
  | nil => exact ⟨_, rfl⟩
  | cons e es ih =>
    cases e with
    | write offset v =>
      unfold takeInput
      split
      · cases s.dec.push v with
        | more d => exact ih { s with dec := d }
        | done i => exact exec_next i { s with dec := .idle, input := es }
      · exact ih s
    | trdy level => exact ih { s with trdy := level }
    | bus bytes => exact ih { s with bus := bytes }
    | erst => exact ⟨_, rfl⟩

/-- Settles O13: an idle engine takes its events, a held one goes on or waits, and every instruction has an effect. -/
theorem nothingTraps : Obligations.NothingTraps := by
  refine ⟨fun s => ?_, exec_next⟩
  cases hb : s.busy with
  | none =>
    rw [step_idle hb]
    exact takeInput_next s.input s
  | some tr => exact ⟨_, step_held hb⟩

/-- A PUTC that does not pass has refused its character (42 R153). -/
theorem afterPutc_failed {s : State} {c : Byte} (h : (afterPutc s c).status ≠ 0#8) : afterPutc s c = s.raise .oob := by
  refine afterPutc_refused (by_contra fun hfits => h ?_)
  rw [afterPutc_written hfits]
  rfl

/-- Settles O53: an effect passes or writes only STATUS and, for LINE, LNCNT; PUTC, the one writer at the cursor left, is one
character. -/
theorem failedCommandsChangeNothing : Obligations.FailedCommandsChangeNothing := by
  intro i s t hnop hinit hsync hputs hputsxy h hfail
  have heffect := effect_of_exec h
  refine ⟨?_, heffect.lncnt_of_not_line⟩
  cases heffect with
  | refuse | rejectLine => rfl
  | store | readPixel | readByte | plotLine | moveCursor => exact absurd rfl hfail
  | writeAtCursor hi =>
    rcases hi with rfl | ⟨c, rfl⟩
    · exact absurd rfl (hputs _)
    · have hput := Host.Outcome.next.inj (h.symm.trans (exec_putc c s))
      rw [hput] at hfail
      rw [hput, afterPutc_failed hfail]
      rfl
  | nop => exact absurd rfl hnop
  | initNotReady | initRun => exact absurd rfl hinit
  | syncRun => exact absurd rfl hsync
  | writeAtPlace => exact absurd rfl (hputsxy _ _ _)

end Sys2Proof.Machine
end

section
/-! SUPPORT. Reset and hazards (70_reset_and_hazards.md): where a stalled bus leaves a command, how the command goes on, what ERST
does to any state, and the statements that follow. -/

namespace Sys2Proof.Machine

/-! ### A command that a stalled bus holds up (70 R262) -/

/-- A state in which the engine hangs: a command is at work, the host can read nothing, and host writes alone change nothing. -/
structure Hangs (t : State) : Prop where
  busy : t.busy ≠ none
  hostRead : ∀ offset, t.hostRead offset = none
  step : (∀ e ∈ t.input, ∃ offset v, e = .write offset v) → step t = .next t

theorem byteDone_of_bus_zero {s : State} (h : s.bus = some 0) : ¬s.byteDone = true := by simp [State.byteDone, h]

theorem hold_hangs {u : State} (hbus : u.bus = some 0) (f : Finish) (dc : Bool) (v : Byte) (ops : List MicroOp) :
    Hangs (u.hold f dc v ops) where
  busy := by simp
  hostRead := fun _ => rfl
  step := fun hin => by
    have hstalled : ¬(u.hold f dc v ops).byteDone = true := byteDone_of_bus_zero hbus
    rw [step_held (State.hold_busy ..), heldStep, if_neg hstalled, heldInput_writes _ _ _ hin]

theorem foldl_doOp_clocked {ops : List MicroOp} (hsend : .resetPulse ∉ ops) (s : State) : Clocked s (ops.foldl doOp s) := by
  induction ops generalizing s with
  | nil => exact .refl s
  | cons op ops ih =>
    cases op with
    | resetPulse => exact absurd List.mem_cons_self hsend
    | send dc v => exact (sendByte_clocked s dc v).trans (ih (List.not_mem_of_not_mem_cons hsend) _)

/-- Where no micro-operation is the reset pulse, each one is a byte and so one event. -/
theorem flatMap_eventsOf_length {ops : List MicroOp} (hsend : .resetPulse ∉ ops) :
    (ops.flatMap eventsOf).length = byteCount ops := by
  induction ops with
  | nil => rfl
  | cons op ops ih =>
    cases op with
    | resetPulse => exact absurd List.mem_cons_self hsend
    | send dc v => simp [ih (List.not_mem_of_not_mem_cons hsend), Nat.add_comm]

/-- Bytes that the bus stalls among are held up after the first `k` of them: their events, and nothing else, have been sent. -/
theorem runOps_sends_stall (f : Finish) {ops : List MicroOp} {s : State} {k : Nat} (hsend : .resetPulse ∉ ops)
    (hk : s.bus = some k) (hlt : k < byteCount ops) :
    ∃ u dc v rest, runOps f ops s = u.hold f dc v rest ∧ Clocked s u ∧ Sent s ((ops.flatMap eventsOf).take k) u ∧
      Hangs (u.hold f dc v rest) := by
  obtain ⟨done, dc, v, rest, rfl, hcount, hbus, hrun⟩ := runOps_stall f ops s k hk hlt
  have hdone : .resetPulse ∉ done := fun h => hsend (List.mem_append_left _ h)
  have hevents : ((done ++ .send dc v :: rest).flatMap eventsOf).take k = done.flatMap eventsOf := by
    rw [List.flatMap_append, List.take_left' ((flatMap_eventsOf_length hdone).trans hcount)]
  exact ⟨done.foldl doOp s, dc, v, rest, hrun, foldl_doOp_clocked hdone s, hevents ▸ foldl_doOp_sent done s, hold_hangs hbus ..⟩

/-! ### The command goes on (70 R262, 41 R134) -/

/-- A held command whose bus completes bytes again sends the byte in flight as if it had never been held. -/
theorem step_hold_resumes {s : State} (hbusy : s.busy = none) (f : Finish) (dc : Bool) (v : Byte) (ops : List MicroOp) :
    step { s.hold f dc v ops with bus := none } = .next (runOps f (.send dc v :: ops) { s with bus := none }) := by
  have hfree : ({ s with bus := none, busy := none } : State) = { s with bus := none } := by rw [← hbusy]
  rw [← hfree]
  rfl

/-- However far a run came before the bus stalled, it goes on to where it ends on a bus that completes every byte. -/
theorem step_runOps_resumes (f : Finish) (ops : List MicroOp) {s : State} (hbusy : s.busy = none)
    (hheld : (runOps f ops s).busy ≠ none) :
    step { runOps f ops s with bus := none } = .next (runOps f ops { s with bus := none }) := by
  induction ops generalizing s with
  | nil =>
    have hkept : (f.apply s).busy = s.busy := by cases f <;> rfl
    exact absurd (hkept.trans hbusy) hheld
  | cons op ops ih =>
    cases op with
    | resetPulse => exact ih (s := s.resetPulse) hbusy hheld
    | send dc v =>
      by_cases hdone : s.byteDone = true
      · have hrun : runOps f (.send dc v :: ops) s = runOps f ops (s.sendByte dc v) := if_pos hdone
        rw [hrun] at hheld ⊢
        exact ih (s := s.sendByte dc v) hbusy hheld
      · have hrun : runOps f (.send dc v :: ops) s = s.hold f dc v ops := if_neg hdone
        rw [hrun]
        exact step_hold_resumes hbusy f dc v ops

/-! ### INIT at each level of TRDY (41 R138) -/

theorem exec_init_ready {s : State} (h : s.trdy = true) : exec .init s = .next (runOps .init (initOps s.params) s) :=
  congrArg Host.Outcome.next (if_pos h)

theorem exec_init_notReady {s : State} (h : ¬s.trdy = true) : exec .init s = .next ({ s with inited := false }.raise .fail) :=
  congrArg Host.Outcome.next (if_neg h)

/-! ### ERST (70 R250) -/

/-- ERST reaches an idle engine and, where the bus is stalled, a held one alike. -/
theorem step_erst {s : State} {es : List PortEvent} (hin : s.input = .erst :: es) (hbus : s.busy ≠ none → s.bus = some 0) :
    step s = .next { s with input := es }.engineReset := by
  cases hb : s.busy with
  | none =>
    rw [step_idle hb, hin]
    rfl
  | some t =>
    have hstalled : ¬s.byteDone = true := byteDone_of_bus_zero (hbus (by simp [hb]))
    rw [step_held hb, heldStep, if_neg hstalled, hin]
    rfl

/-! ### The statements -/

/-- Settles O43: a SYNC is bytes alone, and the bus stalls among them. -/
theorem stalledSyncHangs : Obligations.StalledSyncHangs := by
  intro s k hk hlt
  have hsend : .resetPulse ∉ syncOps s := by simp [syncOps, sendCommands, sendDatas]
  have hcount : k < byteCount (syncOps s) := by simpa [syncOps, byteCount_append] using hlt
  obtain ⟨u, dc, v, rest, hrun, hclocked, hsent, hhangs⟩ := runOps_sends_stall .sync hsend hk hcount
  rw [flatMap_syncOps] at hsent
  obtain ⟨hwire, hpins, _⟩ := hsent
  obtain ⟨⟩ := hclocked
  exact ⟨_, congrArg Host.Outcome.next hrun, hhangs.busy, hwire, hpins, rfl, rfl, rfl, rfl, hhangs.hostRead, hhangs.step⟩

/-- Settles O44: after its pulse an INIT is bytes alone, and the bus stalls among them. -/
theorem stalledInitHangs : Obligations.StalledInitHangs := by
  intro s k htrdy hk hlt
  have hsend : .resetPulse ∉ sendCommands s.params.initSeq := by simp [sendCommands]
  have hcount : k < byteCount (sendCommands s.params.initSeq) := by simpa using hlt
  obtain ⟨u, dc, v, rest, hrun, hclocked, hsent, hhangs⟩ := runOps_sends_stall .init (s := s.resetPulse) hsend hk hcount
  rw [flatMap_sendCommands] at hsent
  obtain ⟨hwire, hpins, _⟩ := hsent
  have hexec : exec .init s = .next (u.hold .init dc v rest) := (exec_init_ready htrdy).trans (congrArg Host.Outcome.next hrun)
  have hframe : u.wire = s.wire ++ (initFrame s).take (k + 2) := hwire.trans (List.append_assoc ..)
  obtain ⟨⟩ := hclocked
  exact ⟨_, hexec, hhangs.busy, hframe, hpins, rfl, rfl, rfl, rfl, rfl, hhangs.hostRead, hhangs.step⟩

/-- Settles O45: INIT without TRDY holds nothing up, and every other INIT and every SYNC is a run, which goes on to its end. -/
theorem stallOnlyDelays : Obligations.StallOnlyDelays := by
  intro s k i hi hbusy
  rcases hi with rfl | rfl
  · by_cases htrdy : s.trdy = true
    · exact ⟨_, _, exec_init_ready htrdy, exec_init_ready htrdy,
        step_runOps_resumes .init _ (s := { s with bus := some k }) hbusy⟩
    · exact ⟨_, _, exec_init_notReady htrdy, exec_init_notReady htrdy, absurd hbusy⟩
  · exact ⟨_, _, rfl, rfl, step_runOps_resumes .sync _ (s := { s with bus := some k }) hbusy⟩

/-- Settles O1: State.reset gives each register its value and lists no framebuffer byte. -/
theorem resetStateHoldsSpecValues : Obligations.ResetStateHoldsSpecValues :=
  ⟨rfl, rfl, rfl, rfl, rfl, rfl, rfl, rfl, rfl, rfl, rfl, rfl, rfl, rfl, fun _ => rfl⟩

/-- Settles O2: the step is the reset itself, which has one value for each field. -/
theorem erstResetsFromAnyState : Obligations.ErstResetsFromAnyState := fun _ _ hin hbus =>
  ⟨_, step_erst hin hbus, rfl, rfl, rfl, rfl, rfl, rfl, rfl, rfl, rfl, rfl, rfl, rfl, rfl, rfl, rfl, rfl, rfl, fun _ => rfl⟩

/-- Settles O3: an idle engine with no event to come takes none. -/
theorem engineWaitsAfterReset : Obligations.EngineWaitsAfterReset := ⟨rfl, rfl, rfl, step_idle rfl⟩

end Sys2Proof.Machine
end
